-- ==== Sys2Proof/Word.lean ====
section
/-! DEFINITION. The words of the Hanulo 416: bytes of the Line Link, words of the configuration block,
web positions. -/

namespace Sys2Proof

/-- A byte of a link frame (R7). -/
abbrev Byte := BitVec 8

/-- A word of the configuration block (R22). -/
abbrev Word16 := BitVec 16

/-- A web position: a count of ticks that wraps modulo 2^32 (00_scope.md, Units). -/
abbrev Pos := BitVec 32

end Sys2Proof
end

