-- ==== Sys2Proof/Syntax.lean ====
section
/-! DEFINITION. The commands of the Hanulo 416: one constructor of `Instr` for each row of
spec/opcode_table.json, with the payloads of the link frames (R8) they carry. -/

namespace Sys2Proof

/-- The hand of a fold: 0 is L and 1 is R in an entry byte (R8). -/
inductive Hand where
  | left
  | right
  deriving DecidableEq, Repr, Inhabited

/-- The kinds of a link frame (R8). -/
inductive FrameKind where
  | halt | beacon | handoff | run | stop | clear | release | plan | patOpen | patStep | patClose | patErase
  | roll | reportReq | report | restart
  deriving DecidableEq, Repr, Inhabited

/-- A pattern entry as a PAT_STEP carries it, before any clamp (R8). -/
inductive RawEntry where
  | fold (hand : Hand) (face depth : BitVec 16) (rep : Byte) (gradeFace gradeDepth : BitVec 16)
  | flat (length : BitVec 24)
  | group (count : Byte)
  | close
  | mirror
  deriving DecidableEq, Repr, Inhabited

/-- The payload of a link frame, field by field in the order sent (R8). `targets` is a target set. -/
inductive Payload where
  | halt (cause origin : Byte)
  | beacon (lineState : Byte) (ceiling vCmd qOut : BitVec 24) (leadEvent latched refusedKind refusalCause belowBand : Byte)
  | handoffPanel (number : BitVec 32) (pattern : BitVec 16) (nominal : BitVec 32) (cause : Byte)
  | handoffSplice (number : BitVec 32)
  | handoffReject (number : BitVec 32) (cause : Byte)
  | run (targets : BitVec 16) (setpoint : BitVec 24)
  | stop (targets : BitVec 16)
  | clear (targets : BitVec 16)
  | release (targets : BitVec 16) (released : Byte)
  | plan (targets pattern count : BitVec 16)
  | patOpen (targets pattern : BitVec 16) (nominal leadIn : BitVec 24) (dose : BitVec 16) (count : Byte)
  | patStep (targets : BitVec 16) (sequence : Byte) (entries : List RawEntry)
  | patClose (targets pattern : BitVec 16) (count : Byte)
  | patErase (targets pattern : BitVec 16)
  | roll (targets : BitVec 16) (position : Byte) (rollId : BitVec 16) (length : BitVec 32)
  | reportReq (targets : BitVec 16) (page : Byte)
  | report (targets : BitVec 16) (page part : Byte) (content : List Byte)
  | restart (targets : BitVec 16)
  deriving DecidableEq, Repr, Inhabited

/-- The two levels (ENCA, ENCB) or (SENA, SENB) of an encoder (R53). -/
structure Quad where
  a : Bool
  b : Bool
  deriving DecidableEq, Repr, Inhabited

/-- Which encoder's capture timer overflows (R57, R58). -/
inductive Encoder where
  | web
  | surface
  deriving DecidableEq, Repr, Inhabited

/-- The two step generators (R48): STEP0 feeds, STEP1 spins the new roll. -/
inductive StepGen where
  | feed
  | newRoll
  deriving DecidableEq, Repr, Inhabited

/-- The commands: one constructor for each row of spec/opcode_table.json, in the table's order. A command that
receives a frame carries the bytes heard on the line, from byte 0 to the check (R7). -/
inductive Instr where
  | powerOn
  | resetPin
  /-- The levels of IDX3 to IDX0 as sampled (R21). -/
  | startUp (straps : BitVec 4)
  /-- The words taken from CFGDI, in address order (R22). -/
  | configReadComplete (words : List Word16)
  | scanReadComplete
  | scanEraseComplete
  | listenTimerExpiry
  | endOfGap
  /-- The slot that opens, 0 to 63 (R2). -/
  | slotOpening (slot : Nat)
  | contentionPeriodTimeout
  | readbackMismatch
  | frameSent
  | receiveAbort
  | beaconTimerExpiry
  | halt (bytes : List Byte)
  | beacon (bytes : List Byte)
  | run (bytes : List Byte)
  | stop (bytes : List Byte)
  | clear (bytes : List Byte)
  | release (bytes : List Byte)
  | handoffPanel (bytes : List Byte)
  | handoffSplice (bytes : List Byte)
  | handoffReject (bytes : List Byte)
  | plan (bytes : List Byte)
  | patOpen (bytes : List Byte)
  | patStep (bytes : List Byte)
  | patClose (bytes : List Byte)
  | patErase (bytes : List Byte)
  | roll (bytes : List Byte)
  | reportReq (bytes : List Byte)
  | report (bytes : List Byte)
  | restart (bytes : List Byte)
  /-- The index of the member whose age timer expires (R33). -/
  | peerAgeTimerExpiry (index : BitVec 4)
  | rampTimerExpiry
  | driveFaultTimerExpiry
  | stepPeriodEnd (gen : StepGen)
  /-- The count the capture timer shows at the edge (R56). -/
  | forwardEdge (count : BitVec 16)
  | reverseEdge
  | captureTimerOverflow (encoder : Encoder)
  /-- The surface encoder's levels before and after the change, and the count its capture timer shows (R58). -/
  | surfaceEncoderEdge (before after : Quad) (count : BitVec 16)
  | markSensed
  | handoffWindowExpiry
  | markWindowExpiry
  | featureAtExit
  | spliceReachesEntry
  | webMapLookupComplete
  | sequencerLookupComplete
  | suspendEnd
  | resumeEnd
  | nvProgramComplete
  | nvEraseComplete
  | strikePositionReached
  | strokeTimerExpiry
  | spliceClearPassed
  | sampleTimerExpiry
  /-- The zone and the converter's raw value (R156). -/
  | zoneConversionComplete (zone : Nat) (raw : BitVec 12)
  | valvePeriodStart (zone : Nat)
  | valveActiveEnd (zone : Nat)
  | doseTimerExpiry
  | segmentBoundary
  | segmentAtExit
  | rollRunOut
  | spliceArming
  | spliceRampTimerExpiry
  | matchTimerExpiry
  | matchTimeoutExpiry
  | pasteStrobeEnd
  | cutStrobeEnd
  | firstActivity
  | powerFailure
  deriving DecidableEq, Repr, Inhabited

end Sys2Proof
end

