-- ==== Sys2Proof/Decode.lean ====
section
/-! DEFINITION. The frames of the Line Link: their bytes, their check, and the tests a complete frame must
pass to be accepted (R7 to R9), with the encoder beside the acceptor; and `decodeTableWord`, which answers none because
no row of the opcode table gives bits. -/

namespace Sys2Proof

/-! ### Bytes, most significant first (R7) -/

/-- The two bytes of a 16-bit field, most significant first (R7). -/
def bytes16 (x : BitVec 16) : List Byte := [x.extractLsb' 8 8, x.extractLsb' 0 8]

/-- The three bytes of a 24-bit field (R7). -/
def bytes24 (x : BitVec 24) : List Byte := [x.extractLsb' 16 8, x.extractLsb' 8 8, x.extractLsb' 0 8]

/-- The four bytes of a 32-bit field (R7). -/
def bytes32 (x : BitVec 32) : List Byte :=
  [x.extractLsb' 24 8, x.extractLsb' 16 8, x.extractLsb' 8 8, x.extractLsb' 0 8]

def join16 (a b : Byte) : BitVec 16 := a ++ b

def join24 (a b c : Byte) : BitVec 24 := a ++ b ++ c

def join32 (a b c d : Byte) : BitVec 32 := a ++ b ++ c ++ d

/-! ### Kinds (R8) -/

/-- The kind code (R8). -/
def FrameKind.code : FrameKind → Byte
  | .halt => 0x01
  | .beacon => 0x02
  | .handoff => 0x03
  | .run => 0x10
  | .stop => 0x11
  | .clear => 0x12
  | .release => 0x13
  | .plan => 0x14
  | .patOpen => 0x15
  | .patStep => 0x16
  | .patClose => 0x17
  | .patErase => 0x18
  | .roll => 0x19
  | .reportReq => 0x1A
  | .report => 0x1B
  | .restart => 0x1C

/-- The class (R8): 0 HALT, 1 BEACON, 2 HANDOFF, 3 every other kind. -/
def FrameKind.frameClass : FrameKind → BitVec 2
  | .halt => 0
  | .beacon => 1
  | .handoff => 2
  | .run | .stop | .clear | .release | .plan | .patOpen | .patStep | .patClose | .patErase | .roll | .reportReq
  | .report | .restart => 3

def FrameKind.all : List FrameKind :=
  [.halt, .beacon, .handoff, .run, .stop, .clear, .release, .plan, .patOpen, .patStep, .patClose, .patErase,
   .roll, .reportReq, .report, .restart]

/-- The kind a code stands for; none for a code outside the table of R8. -/
def FrameKind.ofCode (c : Byte) : Option FrameKind := FrameKind.all.find? fun k => k.code == c

def Payload.kind : Payload → FrameKind
  | .halt .. => .halt
  | .beacon .. => .beacon
  | .handoffPanel .. | .handoffSplice .. | .handoffReject .. => .handoff
  | .run .. => .run
  | .stop .. => .stop
  | .clear .. => .clear
  | .release .. => .release
  | .plan .. => .plan
  | .patOpen .. => .patOpen
  | .patStep .. => .patStep
  | .patClose .. => .patClose
  | .patErase .. => .patErase
  | .roll .. => .roll
  | .reportReq .. => .reportReq
  | .report .. => .report
  | .restart .. => .restart

/-- The target set of a class-3 frame; none for the other classes, which have no target set (R8). -/
def Payload.targets : Payload → Option (BitVec 16)
  | .halt .. | .beacon .. | .handoffPanel .. | .handoffSplice .. | .handoffReject .. => none
  | .run t _ | .stop t | .clear t | .release t _ | .plan t _ _ | .patOpen t _ _ _ _ _ | .patStep t _ _
  | .patClose t _ _ | .patErase t _ | .roll t _ _ _ | .reportReq t _ | .report t _ _ _ | .restart t => some t

/-! ### Pattern entries of PAT_STEP (R8) -/

def handBit : Hand → Byte
  | .left => 0
  | .right => 1

/-- The bytes of an entry: the entry byte with the kind in bits 7 to 4, then the fields (R8). -/
def entryBytes : RawEntry → List Byte
  | .fold hand f d r df dd => (0x10 ||| handBit hand) :: (bytes16 f ++ bytes16 d ++ [r] ++ bytes16 df ++ bytes16 dd)
  | .flat l => 0x20 :: bytes24 l
  | .group c => [0x30, c]
  | .close => [0x40]
  | .mirror => [0x50]

/-- The first entry of a list of bytes and the bytes after it. The bits of the entry byte beside the kind are ignored, except bit 0
of a FOLD, the hand (R8, R100). -/
def parseEntry : List Byte → Option (RawEntry × List Byte)
  | [] => none
  | b :: rest =>
    match (b >>> 4).toNat with
    | 1 =>
      match rest with
      | f1 :: f0 :: d1 :: d0 :: r :: g1 :: g0 :: h1 :: h0 :: more =>
        some (.fold (if b.getLsbD 0 then .right else .left) (join16 f1 f0) (join16 d1 d0) r (join16 g1 g0) (join16 h1 h0), more)
      | _ => none
    | 2 =>
      match rest with
      | l2 :: l1 :: l0 :: more => some (.flat (join24 l2 l1 l0), more)
      | _ => none
    | 3 =>
      match rest with
      | c :: more => some (.group c, more)
      | _ => none
    | 4 => some (.close, rest)
    | 5 => some (.mirror, rest)
    | _ => none

/-- One or two whole entries that exactly fill the bytes (R9). -/
def parseEntries (bytes : List Byte) : Option (List RawEntry) :=
  match parseEntry bytes with
  | none => none
  | some (e, []) => some [e]
  | some (e, rest) =>
    match parseEntry rest with
    | some (e', []) => some [e, e']
    | _ => none

/-! ### Payloads (R8, R9) -/

/-- The payload's bytes in the order sent (R8). -/
def payloadBytes : Payload → List Byte
  | .halt c o => [c, o]
  | .beacon ls ce v q le n rk rc bb => ls :: (bytes24 ce ++ bytes24 v ++ bytes24 q ++ [le, n, rk, rc, bb])
  | .handoffPanel n p l c => 1 :: (bytes32 n ++ bytes16 p ++ bytes32 l ++ [c])
  | .handoffSplice n => 2 :: bytes32 n
  | .handoffReject n c => 3 :: (bytes32 n ++ [c])
  | .run t v => bytes16 t ++ bytes24 v
  | .stop t => bytes16 t
  | .clear t => bytes16 t
  | .release t i => bytes16 t ++ [i]
  | .plan t p c => bytes16 t ++ bytes16 p ++ bytes16 c
  | .patOpen t p l i d n => bytes16 t ++ bytes16 p ++ bytes24 l ++ bytes24 i ++ bytes16 d ++ [n]
  | .patStep t s es => bytes16 t ++ [s] ++ es.flatMap entryBytes
  | .patClose t p n => bytes16 t ++ bytes16 p ++ [n]
  | .patErase t p => bytes16 t ++ bytes16 p
  | .roll t r i l => bytes16 t ++ [r] ++ bytes16 i ++ bytes32 l
  | .reportReq t g => bytes16 t ++ [g]
  | .report t g p c => bytes16 t ++ [g, p] ++ c
  | .restart t => bytes16 t

/-- A payload of a kind, read from its bytes; none where it is not well formed for the kind (R9). -/
def parsePayload (kind : FrameKind) (bytes : List Byte) : Option Payload :=
  match kind with
  | .halt => match bytes with
    | [c, o] => some (.halt c o)
    | _ => none
  | .beacon => match bytes with
    | [ls, c2, c1, c0, v2, v1, v0, q2, q1, q0, le, n, rk, rc, bb] =>
      some (.beacon ls (join24 c2 c1 c0) (join24 v2 v1 v0) (join24 q2 q1 q0) le n rk rc bb)
    | _ => none
  | .handoff => match bytes with
    | [k, n3, n2, n1, n0, p1, p0, l3, l2, l1, l0, c] =>
      if k = 1 ∧ join32 n3 n2 n1 n0 ≠ 0 ∧ c.toNat ≤ 7 then
        some (.handoffPanel (join32 n3 n2 n1 n0) (join16 p1 p0) (join32 l3 l2 l1 l0) c)
      else none
    | [k, n3, n2, n1, n0] =>
      if k = 2 ∧ join32 n3 n2 n1 n0 ≠ 0 then some (.handoffSplice (join32 n3 n2 n1 n0)) else none
    | [k, n3, n2, n1, n0, c] =>
      if k = 3 ∧ join32 n3 n2 n1 n0 ≠ 0 ∧ c.toNat ≤ 7 then some (.handoffReject (join32 n3 n2 n1 n0) c) else none
    | _ => none
  | .run => match bytes with
    | [t1, t0, v2, v1, v0] => some (.run (join16 t1 t0) (join24 v2 v1 v0))
    | _ => none
  | .stop => match bytes with
    | [t1, t0] => some (.stop (join16 t1 t0))
    | _ => none
  | .clear => match bytes with
    | [t1, t0] => some (.clear (join16 t1 t0))
    | _ => none
  | .release => match bytes with
    | [t1, t0, i] => some (.release (join16 t1 t0) i)
    | _ => none
  | .plan => match bytes with
    | [t1, t0, p1, p0, c1, c0] => some (.plan (join16 t1 t0) (join16 p1 p0) (join16 c1 c0))
    | _ => none
  | .patOpen => match bytes with
    | [t1, t0, p1, p0, l2, l1, l0, i2, i1, i0, d1, d0, n] =>
      some (.patOpen (join16 t1 t0) (join16 p1 p0) (join24 l2 l1 l0) (join24 i2 i1 i0) (join16 d1 d0) n)
    | _ => none
  | .patStep => match bytes with
    | t1 :: t0 :: s :: rest => (parseEntries rest).map fun es => .patStep (join16 t1 t0) s es
    | _ => none
  | .patClose => match bytes with
    | [t1, t0, p1, p0, n] => some (.patClose (join16 t1 t0) (join16 p1 p0) n)
    | _ => none
  | .patErase => match bytes with
    | [t1, t0, p1, p0] => some (.patErase (join16 t1 t0) (join16 p1 p0))
    | _ => none
  | .roll => match bytes with
    | [t1, t0, r, i1, i0, l3, l2, l1, l0] => some (.roll (join16 t1 t0) r (join16 i1 i0) (join32 l3 l2 l1 l0))
    | _ => none
  | .reportReq => match bytes with
    | [t1, t0, g] => some (.reportReq (join16 t1 t0) g)
    | _ => none
  | .report => match bytes with
    | t1 :: t0 :: g :: p :: content => some (.report (join16 t1 t0) g p content)
    | _ => none
  | .restart => match bytes with
    | [t1, t0] => some (.restart (join16 t1 t0))
    | _ => none

/-! ### The check (R7) -/

/-- One data bit into the CRC register (R7). -/
def crcBit (reg : BitVec 16) (bit : Bool) : BitVec 16 :=
  if reg.getLsbD 15 = bit then reg <<< 1 else (reg <<< 1) ^^^ 0x1021

/-- One byte into the CRC register, most significant bit first (R7). -/
def crcByte (reg : BitVec 16) (b : Byte) : BitVec 16 :=
  [7, 6, 5, 4, 3, 2, 1, 0].foldl (fun r i => crcBit r (b.getLsbD i)) reg

/-- The check over bytes 1 to 3 + n, from a register of FFFFh (R7). -/
def crc (bytes : List Byte) : BitVec 16 := bytes.foldl crcByte 0xFFFF

/-! ### Frames (R7, R9) -/

/-- An accepted frame: its sender index and its payload (R12 hands both to the owning block). -/
structure RxFrame where
  sender : BitVec 4
  payload : Payload
  deriving DecidableEq, Repr

/-- Byte 1: class in bits 7 and 6, sender in bits 3 to 0 (R7). -/
def classByte (cls : BitVec 2) (sender : BitVec 4) : Byte := cls ++ (0 : BitVec 2) ++ sender

/-- The bytes the check covers: 1 to 3 + n (R7). -/
def checkedBytes (sender : BitVec 4) (p : Payload) : List Byte :=
  classByte p.kind.frameClass sender :: p.kind.code :: BitVec.ofNat 8 (payloadBytes p).length :: payloadBytes p

/-- The whole frame as it goes on the line (R7). -/
def encodeFrame (sender : BitVec 4) (p : Payload) : List Byte :=
  0xD3 :: (checkedBytes sender p ++ bytes16 (crc (checkedBytes sender p)))

/-- The frame a complete run of bytes stands for when it is accepted; none when it fails a test of R9. A length above 16, and
bytes fewer or more than 6 + n, never make a complete frame (R6). -/
def acceptFrame : List Byte → Option RxFrame
  | b0 :: b1 :: b2 :: b3 :: rest =>
    if b0 = 0xD3 ∧ b1.extractLsb' 4 2 = 0 ∧ b3.toNat ≤ 16 ∧ rest.length = b3.toNat + 2 ∧
        rest.drop b3.toNat = bytes16 (crc (b1 :: b2 :: b3 :: rest.take b3.toNat)) then
      match FrameKind.ofCode b2 with
      | some kind =>
        if b1.extractLsb' 6 2 = kind.frameClass then
          (parsePayload kind (rest.take b3.toNat)).map fun p => ⟨b1.extractLsb' 0 4, p⟩
        else none
      | none => none
    else none
  | _ => none

/-- A payload a sender can build: one whose bytes fit R8 and R9. -/
def Payload.wellFormed : Payload → Bool
  | .handoffPanel n _ _ c => n != 0 && decide (c.toNat ≤ 7)
  | .handoffSplice n => n != 0
  | .handoffReject n c => n != 0 && decide (c.toNat ≤ 7)
  | .patStep _ _ es => (es.length == 1 || es.length == 2) && decide ((es.flatMap entryBytes).length ≤ 13)
  | .report _ _ _ content => decide (content.length ≤ 12)
  | _ => true

/-- No row of spec/opcode_table.json gives bits ("fields": [] and no "fixed" in every row), so no word spells a command. -/
def decodeTableWord (_nbits _w : Nat) : Option Instr := none

end Sys2Proof
end

