-- ==== Sys2Proof/Config.lean ====
section
/-! DEFINITION. What the data book leaves open: the outcomes a running operation of the NV array can be
stopped in (R116, R117) and the orders the rules leave open (R150, R178), as opaque values that nothing in Lean can evaluate. -/

namespace Sys2Proof

/-- What the version counter's cell holds after a stopped program (R116, R117). -/
inductive CounterTear where
  | behind    -- the value before the program's completion: the counter stays behind the version written
  | written   -- the advanced value
  | spoilt    -- a write cut short: the cell fails its own check and reads as 0 (R117)
  deriving DecidableEq, Repr, Inhabited

/-- What a stopped NV operation left in the array (R116). The first two fields concern a stopped program: whether the
completion marker and the slot check were written, and, only where they were, whether the retirement mark of
the older copy was. The last field concerns a stopped erase: whether the slot still reads as complete
with its retirement mark. -/
structure NvTear where
  completed : Bool
  oldRetired : Bool
  counter : CounterTear
  eraseLeftWhole : Bool
  deriving DecidableEq, Repr, Inhabited

/-- FREE VALUE (log 5). R116 lists what a reset or a power failure can leave of a running NV operation and does
not say which: the n-th stopped operation leaves `Config.nvTear n`. -/
opaque Config.nvTear : Nat → NvTear

/-- FREE VALUE (log 11). R150 lets the HANDOFF of a splice at the blade and the REJECT notice of the panel it ends join the handoff FIFO
in either order: whether, at the n-th free value, the Sequencer acts before the Web Map takes the exit. -/
opaque Config.noticeFirst : Nat → Bool

/-- FREE VALUE (log 40). R77, R176 and R178 let an exit and a judgement that one lookup's completion releases be taken in either order:
whether, at the n-th free value, the judgements come first. -/
opaque Config.judgeFirst : Nat → Bool

end Sys2Proof
end

