-- ==== Sys2Proof/Machine/State.lean ====
section
/-! DEFINITION. The state of the Hanulo 416: every register, FIFO, timer, table and output the data book names, as plain data, and
the state right after reset. INVENTORY.md lists each field with its rule. -/

namespace Sys2Proof.Machine

/-! ### Small types -/

/-- A timer: stopped, or running with the time it was started for, in microseconds. The model counts no time (log 3). -/
abbrev Timer := Option Nat

/-- Start-up phases (R27), with the conditions before and beside them: no supply, held in reset (R19), stopped by
CONFIG_BAD (R21, R26). -/
inductive StartPhase where
  | off | inReset | read | scan | listen | done | stopped
  deriving DecidableEq, Repr

/-- Kinds of reset (R18). -/
inductive ResetCause where
  | powerOn | pin | restart
  deriving DecidableEq, Repr

/-- Line states (R35 to R40). -/
inductive LineState where
  | starting | standby | run | stopping | halting | held
  deriving DecidableEq, Repr

/-- States of a Peer Table entry (R31). -/
inductive PeerState where
  | absent | fresh | stale | released
  deriving DecidableEq, Repr

/-- The events, in priority order (12_events_and_status.md, The Events). -/
inductive Event where
  | configBad | duplicateIndex | peerLost | trackLost | driveFault | mapFull | handoffBacklog | rollOut | zoneSensor
  | strokeOverrun | spliceFailed | markMissed | strayMark | stretchClamp | patternMissing | lateReject | loadFailed
  | linkError
  deriving DecidableEq, Repr

/-- Causes of a refusal (R8). -/
inductive RefusalCause where
  | notReady | badState | planFull | outOfRange | sequence | structureBad | tooLong | protectedId | storeFull | notFound
  | notFitted
  deriving DecidableEq, Repr

/-- Causes attached to a rejected panel (R8). -/
inductive RejectCause where
  | blank | spliced | overrun | truncated | halted | underdosed | trackLost
  deriving DecidableEq, Repr

/-- The four places frames wait in (R13 to R16). -/
inductive Place where
  | haltHolder | beaconHolder | handoffFifo | generalFifo
  deriving DecidableEq, Repr

/-! ### Start-up and configuration -/

/-- A zone record of the configuration block (R23). -/
structure ZoneConfig where
  start : Nat
  stop : Nat
  setpoint : Nat
  setback : Nat
  band : Nat
  kp : Nat
  ki : Nat
  period : Nat
  activeLow : Bool
  deriving DecidableEq, Repr

/-- The configuration in force (R23, R27). -/
structure StationConfig where
  roster : BitVec 16
  origin : Bool
  feedDrive : Bool
  markSensor : Bool
  blade : Bool
  unwind : Bool
  rejectGate : Bool
  encTicks : Nat
  feedTicksPerStep : Nat
  newRollTicksPerStep : Nat
  maxSpeed : Nat
  acc : Nat
  dec : Nat
  decFast : Nat
  lSpan : Nat
  bDist : Nat
  claimWindow : Nat
  tStroke : Nat
  spliceClear : Nat
  segLen : Nat
  doseDefault : Nat
  spliceAt : Nat
  spliceSpeed : Nat
  pDist : Nat
  protectBoundary : Nat
  zones : List ZoneConfig
  deriving DecidableEq, Repr

/-- Before a block is found good no unit is fitted; the model holds zeros (DESIGN CHOICE, log 4). -/
def StationConfig.blank : StationConfig :=
  { roster := 0, origin := false, feedDrive := false, markSensor := false, blade := false, unwind := false
    rejectGate := false, encTicks := 0, feedTicksPerStep := 0, newRollTicksPerStep := 0, maxSpeed := 0, acc := 0, dec := 0
    decFast := 0, lSpan := 0, bDist := 0, claimWindow := 0, tStroke := 0, spliceClear := 0, segLen := 0, doseDefault := 0
    spliceAt := 0, spliceSpeed := 0, pDist := 0, protectBoundary := 0, zones := [] }

/-- Start-up (R19 to R30, R117, R118). `cfgSent` is what the station has sent on CFGDO in the read in progress, bit by bit in the order
sent; the port is idle when it is empty (R22). -/
structure Boot where
  phase : StartPhase
  index : BitVec 4
  cfgSelect : Bool
  cfgSent : List Bool
  listenTimer : Timer
  scanReading : Bool
  scanMarks : List (Fin 32)
  deriving DecidableEq, Repr

def Boot.reset : Boot :=
  { phase := .inReset, index := 0, cfgSelect := false, cfgSent := [], listenTimer := none, scanReading := false, scanMarks := [] }

/-! ### Link Controller -/

/-- A frame that waits or is being sent. `id` tells frames apart (R5). -/
structure TxFrame where
  id : Nat
  payload : Payload
  deriving DecidableEq, Repr

/-- What the Link Controller makes of the line: waiting for a gap (R6); in a contention period without activity, `next`
being the next slot to open (R2); receiving a frame of another node (R6); sending a frame of its own (R4). -/
inductive LineView where
  | waitGap
  | contention (next : Nat)
  | receiving
  | sending (place : Place) (id : Nat)
  deriving DecidableEq, Repr

/-- Link Controller (R2 to R17). -/
structure Link where
  line : LineView
  haltWaiting : Option TxFrame
  haltOnLine : Option TxFrame
  haltClosed : Bool
  beaconWaiting : Option TxFrame
  beaconOnLine : Option TxFrame
  handoffFifo : List TxFrame
  generalFifo : List TxFrame
  mismatches : Nat
  mismatchFrame : Option Nat
  beaconTimer : Timer
  serial : Nat
  deriving DecidableEq, Repr

def Link.reset : Link :=
  { line := .waitGap, haltWaiting := none, haltOnLine := none, haltClosed := false, beaconWaiting := none, beaconOnLine := none
    handoffFifo := [], generalFifo := [], mismatches := 0, mismatchFrame := none, beaconTimer := none, serial := 0 }

/-! ### Event Latch -/

/-- Event Latch (R200 to R206). Bit p - 1 of `latched` is the flag of the event of priority p. -/
structure EventLatch where
  latched : BitVec 18
  refusedKind : Byte
  refusalCause : Byte
  resetCause : ResetCause
  deriving DecidableEq, Repr

def EventLatch.reset (cause : ResetCause) : EventLatch :=
  { latched := 0, refusedKind := 0, refusalCause := 0, resetCause := cause }

/-! ### Line Control and Step Generators -/

/-- A Peer Table entry (R31). -/
structure Peer where
  member : Bool
  state : PeerState
  ageTimer : Timer
  ceiling : Option Nat
  qOut : Option Nat
  deriving DecidableEq, Repr

def Peer.reset : Peer := { member := false, state := .absent, ageTimer := none, ceiling := none, qOut := none }

/-- Line Control (R31 to R52). -/
structure LineControl where
  peers : Vector Peer 16
  state : LineState
  setpoint : Nat
  vCmd : Nat
  qIn : Nat
  haltOrigin : Byte
  rampTimer : Timer
  driveTimer : Timer
  deriving DecidableEq, Repr

def LineControl.reset : LineControl :=
  { peers := Vector.replicate 16 Peer.reset, state := .starting, setpoint := 0, vCmd := 0, qIn := 65536, haltOrigin := 0
    rampTimer := none, driveTimer := none }

/-- A divisor of a Step Generator: IDLE or a value (R48). -/
inductive Divisor where
  | idle
  | value (n : Nat)
  deriving DecidableEq, Repr

/-- A Step Generator (R48). -/
structure Stepper where
  inUse : Divisor
  waiting : Option Divisor
  deriving DecidableEq, Repr

def Stepper.reset : Stepper := { inUse := .idle, waiting := none }

/-! ### Web Tracker -/

/-- A speed capture (R56). `timer` is the count as the last event left it; the count at an edge comes with the edge (log 15). -/
structure Capture where
  timing : Bool
  timer : BitVec 16
  overflows : Nat
  deriving DecidableEq, Repr

def Capture.reset : Capture := { timing := false, timer := 0, overflows := 0 }

/-- A pending handoff (R61, R63). -/
structure PendingHandoff where
  number : Nat
  pattern : Nat
  nominal : Nat
  cause : Option RejectCause
  arrival : Pos
  deriving DecidableEq, Repr

/-- The stretch reference (R69). `nominal` is absent while the origin's lookup of it is outstanding (log 10). -/
structure StretchRef where
  mark : Pos
  number : Nat
  nominal : Option Nat
  claimed : Bool
  rejected : Bool
  deriving DecidableEq, Repr

/-- Web Tracker (R53 to R73). -/
structure Tracker where
  position : Pos
  debt : Nat
  web : Capture
  speed : Nat
  surface : Capture
  surfaceSpeed : Nat
  lastMark : Option Pos
  lastInterval : Option Nat
  handoffs : List PendingHandoff
  marks : List Pos
  misses : Nat
  stretch : Nat
  ref : Option StretchRef
  guard : Option Pos
  deriving DecidableEq, Repr

def Tracker.reset : Tracker :=
  { position := 0, debt := 0, web := Capture.reset, speed := 0, surface := Capture.reset, surfaceSpeed := 0, lastMark := none
    lastInterval := none, handoffs := [], marks := [], misses := 0, stretch := 65536, ref := none, guard := none }

/-! ### Web Map and Plan Queue -/

/-- A field of a PANEL that a lookup may have to fill (R77). `asNominal`: the pattern is missing and the nominal length is itself
pending, so the field takes it when it comes (R136). -/
inductive Fill where
  | absent
  | pending
  | asNominal
  | value (n : Nat)
  deriving DecidableEq, Repr

/-- A PANEL's fields (R74). -/
structure Panel where
  number : Nat
  pattern : Nat
  nominal : Option Nat
  outLen : Fill
  dose : Fill
  cause : Option RejectCause
  planDrawn : Bool
  deriving DecidableEq, Repr

/-- A feature is a PANEL or a SPLICE (R74). `atEntry`: at the origin, the splice has reached the entry (R92). -/
inductive FeatureBody where
  | panel (p : Panel)
  | splice (number : Nat) (atEntry : Bool)
  deriving DecidableEq, Repr

/-- A feature of the Web Map (R74). `reached`: its exit has been reached (R79), so it is OVERDUE or waits for a
pending field, its own or that of a feature before it (R77). -/
structure Feature where
  body : FeatureBody
  entry : Pos
  overdue : Bool
  reached : Bool
  deriving DecidableEq, Repr

/-- Web Map (R74 to R87): the feature list, head first, and the reject gate. -/
structure WebMap where
  features : List Feature
  gateOpen : Bool
  deriving DecidableEq, Repr

def WebMap.reset : WebMap := { features := [], gateOpen := false }

/-- A Plan Queue entry (R88). -/
structure PlanEntry where
  pattern : Nat
  count : Nat
  deriving DecidableEq, Repr

/-- The origin's last created panel (R89). `inserted` says that the Web Map inserted it, and did not discard it (R76, R89). `cause` is the
first cause it has carried: from its creation, from its record in the list, or by a notice sent after it (R93). -/
structure CreatedPanel where
  number : Nat
  pattern : Nat
  planDrawn : Bool
  inserted : Bool
  cause : Option RejectCause
  deriving DecidableEq, Repr

/-- Plan Queue and panel numbering (R88 to R91). -/
structure PlanQueue where
  entries : List PlanEntry
  counter : Nat
  lastCreated : Option CreatedPanel
  deriving DecidableEq, Repr

def PlanQueue.reset : PlanQueue := { entries := [], counter := 1, lastCreated := none }

/-! ### Pattern Store -/

/-- A pattern entry, clamped (R96, R100). -/
inductive Entry where
  | fold (hand : Hand) (face depth rep : Nat) (gradeFace gradeDepth : Int)
  | flat (length : Nat)
  | group (count : Nat)
  | close
  | mirror
  deriving DecidableEq, Repr

/-- A pattern: header and entries (R96). -/
structure Pattern where
  id : Nat
  nominal : Nat
  leadIn : Nat
  dose : Nat
  entries : List Entry
  deriving DecidableEq, Repr

/-- What a slot of the NV array holds when it is not clean (R97). -/
structure NvRecord where
  pattern : Pattern
  version : Nat
  marker : Bool
  checkGood : Bool
  retired : Bool
  deriving DecidableEq, Repr

/-- Slot states (R97). -/
inductive SlotState where
  | empty | programming | valid | retired | erasing
  deriving DecidableEq, Repr

/-- A record of the slot table (R97). -/
structure SlotRecord where
  state : SlotState
  id : Option Nat
  version : Option Nat
  count : Option Nat
  deriving DecidableEq, Repr

def SlotRecord.cleared : SlotRecord := { state := .empty, id := none, version := none, count := none }

/-- The assembly buffer when OPEN (R98). -/
structure Buffer where
  id : Nat
  nominal : Nat
  leadIn : Nat
  dose : Nat
  announced : Nat
  nextSeq : Nat
  entries : List Entry
  deriving DecidableEq, Repr

/-- An NV operation (R108). -/
inductive NvOp where
  | program (slot : Fin 32) (pattern : Pattern)
  | erase (slot : Fin 32)
  deriving DecidableEq, Repr

/-- Phases of a running NV operation (R108, R114). -/
inductive NvPhase where
  | writing | suspending | suspended | resuming
  deriving DecidableEq, Repr

/-- Who asks for a lookup, and at the Sequencer whether it is an insertion's lookup or a late copy (R112, R134, R135). -/
inductive Requester where
  | insertion | lateCopy | webMap
  deriving DecidableEq, Repr

/-- A lookup asked for on behalf of a panel (R112). -/
structure Lookup where
  requester : Requester
  panel : Nat
  id : Nat
  deriving DecidableEq, Repr

/-- The lookup in service: what the slot table gave at its start, and its service time in microseconds (R112, R115). -/
structure Service where
  lookup : Lookup
  found : Option Pattern
  time : Nat
  deriving DecidableEq, Repr

/-- Pattern Store (R96 to R119). `nv` and `counter` are the array; a clean slot is none, and a counter cell that fails its own
check is none (R117). `ops` holds the running operation at its head while `phase` is present (R108). -/
structure Store where
  nv : Vector (Option NvRecord) 32
  counter : Option Nat
  table : Vector SlotRecord 32
  buffer : Option Buffer
  ops : List NvOp
  phase : Option NvPhase
  opTime : Nat
  serving : Option Service
  seqWaiting : List Lookup
  mapWaiting : List Lookup
  deriving DecidableEq, Repr

/-- The store with an array that keeps its contents and everything volatile at its reset value (R119). -/
def Store.reset (nv : Vector (Option NvRecord) 32) (counter : Option Nat) : Store :=
  { nv := nv, counter := counter, table := Vector.replicate 32 SlotRecord.cleared, buffer := none, ops := [], phase := none
    opTime := 0, serving := none, seqWaiting := [], mapWaiting := [] }

/-! ### Pleat Sequencer -/

/-- Sequencer states (08_pleat_sequencer.md, Sequencer States). -/
inductive SeqState where
  | idle | leadIn | folding | tail | runout
  deriving DecidableEq, Repr

/-- A frame of the Repeat Stack (R144): FORWARD, or MIRRORED with the index of its MIRROR entry. -/
structure RepeatFrame where
  start : Nat
  remaining : Nat
  mirror : Option Nat
  deriving DecidableEq, Repr

/-- An outstanding strike position with its hand and depth word (R121, R124). -/
structure Strike where
  pos : Pos
  hand : Hand
  depth : Nat
  deriving DecidableEq, Repr

/-- Play state (R143 to R145) with the arithmetic's running position, remainder and count (R122). -/
structure Play where
  pointer : Nat
  rep : Option Nat
  stack : List RepeatFrame
  lastClosed : Option (Nat × Nat)
  position : Pos
  remainder : Nat
  computed : Nat
  strike : Option Strike
  deriving DecidableEq, Repr

/-- A Panel Context (R133). It is FLAT when delivered without a pattern (R136). `entry` and `nominal` are
the PANEL record's, kept for R122 and R136 after the record has left the list. -/
structure Context where
  panel : Nat
  id : Nat
  entry : Pos
  nominal : Option Nat
  pattern : Option Pattern
  outLen : Option Nat
  qPanel : Nat
  cMin : Option Nat
  delivered : Bool
  deriving DecidableEq, Repr

/-- Pleat Sequencer (R132 to R153). `bladeHand` left is BLHND low; `bladeDepth` is BLDEP11 to BLDEP0. -/
structure Sequencer where
  state : SeqState
  current : Option Context
  next : Option Context
  play : Option Play
  clearPos : Option Pos
  strokeTimer : Timer
  bladeStrobe : Bool
  bladeHand : Hand
  bladeDepth : BitVec 12
  deriving DecidableEq, Repr

def Sequencer.reset : Sequencer :=
  { state := .idle, current := none, next := none, play := none, clearPos := none, strokeTimer := none, bladeStrobe := false
    bladeHand := .left, bladeDepth := 0 }

/-! ### Steam Zone Unit and Dose Accountant -/

/-- What a station puts on an output: driven low or high, or not driven (R155). -/
inductive PinLevel where
  | low | high | undriven
  deriving DecidableEq, Repr

/-- The record of a fitted zone (R154). `active`: VLV stands at the level that opens the valve (R155, R164). -/
structure Zone where
  cfg : ZoneConfig
  faulted : Bool
  bad : Nat
  good : Nat
  temperature : Option Nat
  setpointInUse : Nat
  integrator : Int
  pendingDuty : Option Nat
  duty : Nat
  inBand : Bool
  periodTimer : Timer
  active : Bool
  deriving DecidableEq, Repr

/-- Steam Zone Unit (R154 to R169). `zones` holds the fitted zones from the moment the block is found good; every other VLV
output is undriven (R155). -/
structure Steam where
  sampleTimer : Timer
  converting : List Nat
  zones : List Zone
  deriving DecidableEq, Repr

def Steam.reset : Steam := { sampleTimer := none, converting := [], zones := [] }

/-- A segment of the Steam Queue (R170). `required` is absent while it is pending. -/
structure Segment where
  close : Pos
  panel : Nat
  required : Option Nat
  splice : Bool
  rejected : Bool
  dose : Nat
  deriving DecidableEq, Repr

/-- Dose Accountant (R170 to R182). -/
structure Dose where
  queue : List Segment
  nextBoundary : Pos
  lastRejected : Nat
  timer : Timer
  deriving DecidableEq, Repr

def Dose.reset : Dose := { queue := [], nextBoundary := 0, lastRejected := 0, timer := none }

/-! ### Splice Unit -/

/-- Roll record states (R183). -/
inductive RollState where
  | empty | loaded | active | expiring
  deriving DecidableEq, Repr

/-- A roll record (R183). -/
structure Roll where
  state : RollState
  id : Option Nat
  remaining : Option Nat
  deriving DecidableEq, Repr

def Roll.none : Roll := { state := .empty, id := Option.none, remaining := Option.none }

/-- The two positions of the stand (R183). -/
inductive Side where
  | a | b
  deriving DecidableEq, Repr

/-- Splice states (11_roll_change.md, The Splice Sequence). -/
inductive SpliceState where
  | idle | armed | matching | pasting | cutting | inhibited
  deriving DecidableEq, Repr

/-- Splice Unit (R183 to R198). -/
structure Splice where
  rollA : Roll
  rollB : Roll
  state : SpliceState
  vNew : Nat
  rampTimer : Timer
  matchTimer : Timer
  matchTimeout : Timer
  strobeTimer : Timer
  paste : Bool
  cut : Bool
  counter : Nat
  deriving DecidableEq, Repr

def Splice.reset : Splice :=
  { rollA := Roll.none, rollB := Roll.none, state := .idle, vNew := 0, rampTimer := none, matchTimer := none, matchTimeout := none
    strobeTimer := none, paste := false, cut := false, counter := 1 }

/-! ### The machine's state -/

/-- The state of the part. `pending` is the queue of commands that wait, oldest first, and `free` the counter the free values of
Config are applied to; both are the model's own. -/
structure State where
  pending : List Instr
  boot : Boot
  cfg : StationConfig
  link : Link
  events : EventLatch
  line : LineControl
  step0 : Stepper
  step1 : Stepper
  tracker : Tracker
  map : WebMap
  plan : PlanQueue
  store : Store
  seq : Sequencer
  steam : Steam
  dose : Dose
  splice : Splice
  free : Nat
  deriving DecidableEq, Repr

/-- Right after a power-on reset of a part whose array has never been programmed: held in reset (R19), cause POWER_ON (R18), every
volatile value as R17, R31, R41, R48, R73, R94, R119, R153, R169, R182, R198 and R204 give it, no command waiting. The blank
array, and the values those rules do not give, are DESIGN CHOICE (log 4). -/
def State.reset : State :=
  { pending := [], boot := Boot.reset, cfg := StationConfig.blank, link := Link.reset, events := EventLatch.reset .powerOn
    line := LineControl.reset, step0 := Stepper.reset, step1 := Stepper.reset, tracker := Tracker.reset, map := WebMap.reset
    plan := PlanQueue.reset, store := Store.reset (Vector.replicate 32 none) (some 0), seq := Sequencer.reset
    steam := Steam.reset, dose := Dose.reset, splice := Splice.reset, free := 0 }

/-- Reasons a step could stop with a fault. The data book gives the part no such stop: what goes wrong latches an event
(R200) and the part goes on. So there is none. -/
inductive Fault where
  deriving DecidableEq, Repr

/-- Reasons a command could be refused by the model. -/
inductive Refusal where
  /-- Raised by `exec` alone, for a command whose meaning is not written yet. Safe: the model stops where the part goes on. No
  command is refused so any more. -/
  | notModelled (mnemonic : String)
  deriving DecidableEq, Repr

end Sys2Proof.Machine
end

