-- ==== Sys2Proof/Machine/Operands.lean ====
section
/-! DEFINITION. The numbers of the data book: clamps, travel, big-endian fields, small codes, the judging of encoder edges, the
bits of the Line Link and of the configuration port, and the clamping of pattern entries as they are loaded. -/

namespace Sys2Proof.Machine

/-- "Clamped to a to b" (00_scope.md, Numbers and Ranges). -/
def clamp (a b v : Nat) : Nat := if v < a then a else if b < v then b else v

/-- The same for signed values. -/
def clampInt (a b v : Int) : Int := if v < a then a else if b < v then b else v

/-- The travel of a point since position `p`: the signed difference modulo 2^32 (00_scope.md, Positions and Travel). -/
def travel (now p : Pos) : Int := (now - p).toInt

/-- The travel since `p` reaches `d` (00_scope.md, Positions and Travel). -/
def reaches (now p : Pos) (d : Nat) : Bool := decide ((d : Int) ≤ travel now p)

/-- `p` lies at or before `q` on the web. -/
def atOrBefore (p q : Pos) : Bool := decide (0 ≤ travel q p)

/-- The position `n` ticks further. -/
def ahead (p : Pos) (n : Nat) : Pos := p + BitVec.ofNat 32 n

/-- A number as `n` bytes, most significant first (R206). -/
def bigEndian (n v : Nat) : List Byte := (List.range n).reverse.map fun i => BitVec.ofNat 8 (v / 256 ^ i)

/-- A signed number as three bytes in two's complement (R206). -/
def bigEndianSigned24 (v : Int) : List Byte := bigEndian 3 (BitVec.ofInt 24 v).toNat

/-- Index `i` is in a set of 16 bits (R8, R23). -/
def inSet (bits : BitVec 16) (i : BitVec 4) : Bool := bits.getLsbD i.toNat

/-- The sixteen indices, lowest first. -/
def allIndices : List (BitVec 4) := [0, 1, 2, 3, 4, 5, 6, 7, 8, 9, 10, 11, 12, 13, 14, 15]

/-- The 32 slots, lowest first. -/
def allSlots : List (Fin 32) :=
  [0, 1, 2, 3, 4, 5, 6, 7, 8, 9, 10, 11, 12, 13, 14, 15, 16, 17, 18, 19, 20, 21, 22, 23, 24, 25, 26, 27, 28, 29, 30, 31]

/-- The first element that passes a test is changed; the others stay. -/
def modifyFirst {α : Type} (p : α → Bool) (f : α → α) : List α → List α
  | [] => []
  | x :: xs => if p x then f x :: xs else x :: modifyFirst p f xs

/-! ### Small codes (R8, R206) -/

def LineState.code : LineState → Nat
  | .starting => 0
  | .standby => 1
  | .run => 2
  | .stopping => 3
  | .halting => 4
  | .held => 5

def RefusalCause.code : RefusalCause → Byte
  | .notReady => 1
  | .badState => 2
  | .planFull => 3
  | .outOfRange => 4
  | .sequence => 5
  | .structureBad => 6
  | .tooLong => 7
  | .protectedId => 8
  | .storeFull => 9
  | .notFound => 10
  | .notFitted => 11

def RejectCause.code : RejectCause → Nat
  | .blank => 1
  | .spliced => 2
  | .overrun => 3
  | .truncated => 4
  | .halted => 5
  | .underdosed => 6
  | .trackLost => 7

/-- The code of an optional reject cause, 0 when absent (R8). -/
def causeCode : Option RejectCause → Nat
  | none => 0
  | some c => c.code

/-- The reject cause a code stands for; 0 is absent (R8). -/
def causeOfCode (c : Byte) : Option RejectCause :=
  match c.toNat with
  | 1 => some .blank
  | 2 => some .spliced
  | 3 => some .overrun
  | 4 => some .truncated
  | 5 => some .halted
  | 6 => some .underdosed
  | 7 => some .trackLost
  | _ => none

def ResetCause.code : ResetCause → Nat
  | .powerOn => 1
  | .pin => 2
  | .restart => 3

def SlotState.code : SlotState → Nat
  | .empty => 0
  | .programming => 1
  | .valid => 2
  | .retired => 3
  | .erasing => 4

def RollState.code : RollState → Nat
  | .empty => 0
  | .loaded => 1
  | .active => 2
  | .expiring => 3

def SpliceState.code : SpliceState → Nat
  | .idle => 0
  | .armed => 1
  | .matching => 2
  | .pasting => 3
  | .cutting => 4
  | .inhibited => 5

def boolCode (b : Bool) : Nat := if b then 1 else 0

/-! ### Bits on the line and on the configuration port (R1, R22) -/

/-- The bits of a byte, most significant first (R1, R22). -/
def byteBits (b : Byte) : List Bool := [7, 6, 5, 4, 3, 2, 1, 0].map fun i => b.getLsbD i

/-- A bit of the line: a node drives it dominant or leaves it recessive (R1). -/
inductive LineBit where
  | dominant
  | recessive
  deriving DecidableEq, Repr

/-- What the line carries of two bits driven in one bit time: dominant wins (R1). -/
def LineBit.wired : LineBit → LineBit → LineBit
  | .recessive, .recessive => .recessive
  | .dominant, _ | .recessive, .dominant => .dominant

/-- A data bit on the line: dominant stands for 0, recessive for 1 (R1). -/
def dataBit (b : Bool) : LineBit := if b then .recessive else .dominant

/-- A byte on the line: ten bit times, a dominant start bit, the data bits and a recessive stop bit (R1). -/
def lineByte (b : Byte) : List LineBit := .dominant :: ((byteBits b).map dataBit ++ [.recessive])

/-- A frame on the line: its bytes, each following the last without a break (R1). -/
def lineFrame (bytes : List Byte) : List LineBit := bytes.flatMap lineByte

/-- The byte that eight data bits on the line stand for (R1). -/
def readData (bits : List LineBit) : Byte :=
  bits.foldl (fun v x => v <<< 1 ||| (match x with
    | .recessive => 1
    | .dominant => 0)) 0

/-- The bytes a receiver takes from the line, ten bit times each, while each has a dominant start bit and a recessive stop bit; none
where a byte has not (R1, R6). -/
def readLine : List LineBit → Option (List Byte)
  | [] => some []
  | .dominant :: a :: b :: c :: d :: e :: f :: g :: h :: .recessive :: rest =>
    (readLine rest).map fun bytes => readData [a, b, c, d, e, f, g, h] :: bytes
  | _ => none

/-- What the station sends on CFGDO to begin a configuration read: the read instruction, the byte 3, and the 16-bit start address 0
(R22). -/
def readRequest : List Bool := byteBits 3 ++ byteBits 0 ++ byteBits 0

/-! ### Encoder edges (R53) -/

/-- The direction of an edge. -/
inductive Direction where
  | forward
  | reverse
  deriving DecidableEq, Repr

/-- The pair that follows in the forward sequence (0,0), (1,0), (1,1), (0,1) (R53). -/
def followingLevels (q : Quad) : Quad :=
  match q.a, q.b with
  | false, false => ⟨true, false⟩
  | true, false => ⟨true, true⟩
  | true, true => ⟨false, true⟩
  | false, true => ⟨false, false⟩

/-- The edge a change of levels is: none when neither or both signals changed (R53). -/
def judgeEdge (before after : Quad) : Option Direction :=
  if after = followingLevels before then some .forward
  else if before = followingLevels after then some .reverse
  else none

/-! ### Pattern entries as loaded (R100) -/

/-- An entry clamped as its PAT_STEP is taken (R100); the grades are two's complement (R8). -/
def clampEntry : RawEntry → Entry
  | .fold hand f d r gf gd =>
    .fold hand (clamp 200 8000 f.toNat) (clamp 100 4000 d.toNat) (clamp 1 255 r.toNat) (clampInt (-500) 500 gf.toInt)
      (clampInt (-500) 500 gd.toInt)
  | .flat l => .flat (clamp 1 100000 l.toNat)
  | .group c => .group (clamp 1 255 c.toNat)
  | .close => .close
  | .mirror => .mirror

/-! ### Divisors (R49) -/

/-- The divisor for a local speed (R49). -/
def divisorFor (ticksPerStep speed : Nat) : Divisor :=
  if speed = 0 then .idle
  else if 65536 < 8000000 * ticksPerStep / (2 * speed) then .idle
  else if 8000000 * ticksPerStep / (2 * speed) < 2 then .value 1
  else .value (8000000 * ticksPerStep / (2 * speed) - 1)

end Sys2Proof.Machine
end

