-- ==== Sys2Proof/Machine/Flags.lean ====
section
/-! DEFINITION. The Event Latch's flags: priorities, classes, setting and clearing, the lead event, the count of latched events, and
the last-refusal record (R200 to R203). -/

namespace Sys2Proof.Machine

/-- The priority number, which is also the event's code (12_events_and_status.md, The Events). -/
def Event.priority : Event → Nat
  | .configBad => 1
  | .duplicateIndex => 2
  | .peerLost => 3
  | .trackLost => 4
  | .driveFault => 5
  | .mapFull => 6
  | .handoffBacklog => 7
  | .rollOut => 8
  | .zoneSensor => 9
  | .strokeOverrun => 10
  | .spliceFailed => 11
  | .markMissed => 12
  | .strayMark => 13
  | .stretchClamp => 14
  | .patternMissing => 15
  | .lateReject => 16
  | .loadFailed => 17
  | .linkError => 18

/-- Every event, highest priority first. -/
def Event.all : List Event :=
  [.configBad, .duplicateIndex, .peerLost, .trackLost, .driveFault, .mapFull, .handoffBacklog, .rollOut, .zoneSensor,
   .strokeOverrun, .spliceFailed, .markMissed, .strayMark, .stretchClamp, .patternMissing, .lateReject, .loadFailed,
   .linkError]

/-- The halt class is priorities 1 to 8 (R200). -/
def Event.isHalt (e : Event) : Bool := decide (e.priority ≤ 8)

/-- The flag's bit in the latched set (R206). -/
def Event.bit (e : Event) : BitVec 18 := BitVec.twoPow 18 (e.priority - 1)

/-- The event is latched. -/
def EventLatch.has (l : EventLatch) (e : Event) : Bool := l.latched.getLsbD (e.priority - 1)

/-- Sets the event's flag (R200). -/
def EventLatch.set (l : EventLatch) (e : Event) : EventLatch := { l with latched := l.latched ||| e.bit }

/-- Some halt-class event is latched. -/
def EventLatch.anyHalt (l : EventLatch) : Bool := Event.all.any fun e => e.isHalt && l.has e

/-- The code of the lead event: the latched event of lowest priority number, 0 when none is (R201, R8). -/
def EventLatch.leadCode (l : EventLatch) : Nat :=
  match Event.all.find? fun e => l.has e with
  | some e => e.priority
  | none => 0

/-- The number of latched events (R201). -/
def EventLatch.count (l : EventLatch) : Nat := (Event.all.filter fun e => l.has e).length

/-- Clears each latched event that passes the test (R202). -/
def EventLatch.clearWhere (l : EventLatch) (gone : Event → Bool) : EventLatch :=
  { l with latched := Event.all.foldl (fun v e => if l.has e && gone e then v &&& ~~~ e.bit else v) l.latched }

/-- A refusal replaces both fields of the record (R203). -/
def EventLatch.refuse (l : EventLatch) (kind : FrameKind) (cause : RefusalCause) : EventLatch :=
  { l with refusedKind := kind.code, refusalCause := cause.code }

end Sys2Proof.Machine
end

