-- ==== Sys2Proof/Machine/Ops.lean ====
section
/-! DEFINITION. The operations the commands share: the computed views (speeds, ceilings, ratios, last station, source, what
stands on the line and on the valves), the transmit places, step generators, reject causes and notices, the Splice Unit's moves, the line state and the latching of
events. -/

namespace Sys2Proof.Machine

/-! ### Units and phases -/

/-- The configuration is in force: from the block found good to the next reset (R27). -/
def State.configured (s : State) : Bool :=
  match s.boot.phase with
  | .scan | .listen | .done => true
  | .off | .inReset | .read | .stopped => false

/-- Start-up is DONE with CONFIG_BAD not latched: the condition most rules put before their work (R29, R30). -/
def State.ready (s : State) : Bool := decide (s.boot.phase = .done)

/-- The part has its supply and is out of reset. -/
def State.awake (s : State) : Bool :=
  match s.boot.phase with
  | .off | .inReset => false
  | .read | .scan | .listen | .done | .stopped => true

/-- The station's zone count is 1 to 4 (R154). -/
def State.hasZones (s : State) : Bool := !s.cfg.zones.isEmpty

/-- Origin flag set and unwind fitted (R183). -/
def State.hasSpliceUnit (s : State) : Bool := s.cfg.origin && s.cfg.unwind

/-! ### The Peer Table (R31) -/

/-- The entry of an index. -/
def LineControl.peer (l : LineControl) (i : BitVec 4) : Peer := l.peers[i.toNat]'i.isLt

/-- The table with the entry of an index replaced. -/
def LineControl.setPeer (l : LineControl) (i : BitVec 4) (p : Peer) : LineControl :=
  { l with peers := l.peers.set i.toNat p i.isLt }

/-- Members whose entry is not RELEASED (R61, R81). -/
def LineControl.standing (l : LineControl) (i : BitVec 4) : Bool := (l.peer i).member && decide ((l.peer i).state ≠ .released)

/-- Members whose entry is FRESH. -/
def LineControl.isFresh (l : LineControl) (i : BitVec 4) : Bool := (l.peer i).member && decide ((l.peer i).state = .fresh)

/-- Members whose entry is ABSENT or STALE (R35, R44). -/
def LineControl.isMissing (l : LineControl) (i : BitVec 4) : Bool :=
  (l.peer i).member && (decide ((l.peer i).state = .absent) || decide ((l.peer i).state = .stale))

/-- Every member is FRESH or RELEASED (R35, R40). -/
def LineControl.allHeard (l : LineControl) : Bool := !allIndices.any l.isMissing

/-- The station is the last: no member above it stands other than RELEASED (R81). -/
def State.isLast (s : State) : Bool := !allIndices.any fun i => decide (s.boot.index < i) && s.line.standing i

/-- The source of handoffs: the nearest upstream member not RELEASED (R61, R83). -/
def State.source (s : State) : Option (BitVec 4) :=
  (allIndices.filter fun i => decide (i < s.boot.index) && s.line.standing i).getLast?

/-- A handoff from this sender is accepted: never at the origin, elsewhere from the source alone (R60, R61, R83). -/
def State.acceptsFrom (s : State) (sender : BitVec 4) : Bool := !s.cfg.origin && decide (s.source = some sender)

/-- The nearest upstream member whose entry is FRESH (R46). -/
def State.nearestFresh (s : State) : Option (BitVec 4) :=
  (allIndices.filter fun i => decide (i < s.boot.index) && s.line.isFresh i).getLast?

/-! ### Reference and local speed (R42) -/

/-- A reference speed as a local speed (R42). -/
def State.toLocal (s : State) (v : Nat) : Nat := v * s.line.qIn / 65536

/-- A local speed as a reference speed, clamped to MAX_SPEED (R42). -/
def State.toReference (s : State) (v : Nat) : Nat := min (v * 65536 / s.line.qIn) s.cfg.maxSpeed

/-- The station's local speed (R51). -/
def State.localSpeed (s : State) : Nat := s.toLocal s.line.vCmd

/-! ### Ceilings (R43) -/

/-- The pleat ceiling, while a context with a C_min is current (R129). -/
def State.pleatCeiling (s : State) : Option Nat :=
  if s.cfg.blade then
    match s.seq.current with
    | some c =>
      match c.cMin with
      | some m => some (m * s.tracker.stretch / 65536 * 1000 / s.cfg.tStroke)
      | none => none
    | none => none
  else none

/-- The in-band length L_eff (R179), which a zone in band in STOPPING keeps above 0 (log 41). -/
def State.inBandLength (s : State) : Nat :=
  ((s.steam.zones.filter fun z => z.inBand).map fun z => z.cfg.stop - z.cfg.start).sum

/-- The PANEL of a feature. -/
def Feature.panel? (f : Feature) : Option Panel :=
  match f.body with
  | .panel p => some p
  | .splice _ _ => none

/-- The filled value of a field (R77). -/
def Fill.get? : Fill → Option Nat
  | .value n => some n
  | .absent | .pending | .asNominal => none

/-- The PANEL nearest at or before a position: the last such PANEL in list order (R172, R180). -/
def State.panelAt (s : State) (p : Pos) : Option Panel :=
  ((s.map.features.filter fun f => f.panel?.isSome && atOrBefore f.entry p).getLast?).bind Feature.panel?

/-- The entry panel: the PANEL of the list nearest at or before the current position (R180). -/
def State.entryPanel (s : State) : Option Panel := s.panelAt s.tracker.position

/-- dose_max (R180): a dose still pending does not count. -/
def State.doseMax (s : State) : Nat :=
  max ((s.dose.queue.map fun g => g.required.getD 0).foldl max 0)
    (match s.entryPanel with
     | some p => (p.dose.get?).getD 0
     | none => 0)

/-- The steam ceiling, while dose_max is above 0 (R181). -/
def State.steamCeiling (s : State) : Option Nat :=
  if s.hasZones && decide (0 < s.doseMax) then some (s.inBandLength * 1000 / s.doseMax) else none

/-- The splice ceiling (R197). -/
def State.spliceCeiling (s : State) : Option Nat :=
  match s.splice.state with
  | .idle => none
  | .armed | .matching | .pasting | .cutting | .inhibited => some s.cfg.spliceSpeed

/-- The ceilings the station's jobs supply, in local speed (R43). -/
def State.jobCeilings (s : State) : List Nat :=
  s.pleatCeiling.toList ++ s.steamCeiling.toList ++ s.spliceCeiling.toList

/-- The own ceiling (R43). -/
def State.ownCeiling (s : State) : Nat :=
  match s.line.state with
  | .run => (s.jobCeilings.map s.toReference).foldl min s.cfg.maxSpeed
  | .starting | .standby | .stopping | .halting | .held => 0

/-- The ceilings announced by the FRESH members other than the station (R44). -/
def State.peerCeilings (s : State) : List Nat :=
  (allIndices.filter fun i => decide (i ≠ s.boot.index) && s.line.isFresh i).filterMap fun i => (s.line.peer i).ceiling

/-- The target (R44). -/
def State.target (s : State) : Nat :=
  match s.line.state with
  | .run => if s.line.allHeard then s.peerCeilings.foldl min (min s.line.setpoint s.ownCeiling) else 0
  | .starting | .standby | .stopping | .halting | .held => 0

/-! ### Outflow ratio (R47) and conditions -/

/-- q_panel of the current context; a ratio of one where there is none (R128). -/
def State.currentQPanel (s : State) : Nat :=
  match s.seq.current with
  | some c => c.qPanel
  | none => 65536

/-- q_out (R47). -/
def State.qOut (s : State) : Nat :=
  if s.cfg.blade then
    match s.seq.state with
    | .folding | .tail => max 1 (s.line.qIn * s.currentQPanel / 65536)
    | .idle | .leadIn | .runout => s.line.qIn
  else s.line.qIn

/-- The difference of two numbers. -/
def absDiff (a b : Nat) : Nat := if a ≤ b then b - a else a - b

/-- The drive condition (R52). -/
def State.driveCondition (s : State) : Bool :=
  s.configured && decide (1000 ≤ s.localSpeed) && decide (s.localSpeed / 4 < absDiff s.tracker.speed s.localSpeed)

/-- The match condition (R190). -/
def State.matchCondition (s : State) : Bool :=
  decide (1000 ≤ s.localSpeed) && decide (absDiff s.tracker.surfaceSpeed s.localSpeed ≤ s.localSpeed / 64)

/-! ### Step Generators (R49, R50) -/

/-- A divisor is placed: taken at once by an idle generator when it is a value, else pending (R50). -/
def Stepper.place (g : Stepper) (d : Divisor) : Stepper :=
  match g.inUse, d with
  | .idle, .value n => { inUse := .value n, waiting := none }
  | _, _ => { g with waiting := some d }

/-- STEP0 is given the station's local speed; a generator whose drive is not fitted keeps IDLE (R51). -/
def State.feedStep (s : State) : State :=
  if s.cfg.feedDrive then { s with step0 := s.step0.place (divisorFor s.cfg.feedTicksPerStep s.localSpeed) } else s

/-- v_new is set; a change is given to STEP1 as its local speed (R189). -/
def State.setVNew (s : State) (v : Nat) : State :=
  if v = s.splice.vNew then s
  else
    { s with
      splice := { s.splice with vNew := v }
      step1 := if s.cfg.unwind then s.step1.place (divisorFor s.cfg.newRollTicksPerStep v) else s.step1 }

/-! ### What stands on the line and on the valves (R1, R4, R155) -/

/-- The frame being sent: the one on the line from a holder, or the head of a FIFO (R13 to R16). -/
def Link.onLine (l : Link) : Option TxFrame :=
  match l.line with
  | .sending .haltHolder _ => l.haltOnLine
  | .sending .beaconHolder _ => l.beaconOnLine
  | .sending .handoffFifo _ => l.handoffFifo.head?
  | .sending .generalFifo _ => l.generalFifo.head?
  | .waitGap | .contention _ | .receiving => none

/-- The bits the station drives on the Line Link, in the order sent, for the frame it is sending; none while it sends none (R1, R4, R7). -/
def State.driven (s : State) : List LineBit :=
  match s.link.onLine with
  | some f => lineFrame (encodeFrame s.boot.index f.payload)
  | none => []

/-- The level of output VLVz: the active or the inactive level of the zone's polarity; undriven for a zone that is not fitted, before the
block is found good, and while CONFIG_BAD is latched (R155). -/
def State.valveLevel (s : State) (z : Nat) : PinLevel :=
  match s.steam.zones[z]? with
  | some zone =>
    if s.events.has .configBad then .undriven
    else if zone.active = zone.cfg.activeLow then .low
    else .high
  | none => .undriven

/-! ### Transmit places (R13 to R16) -/

/-- A HALT is raised: it becomes the waiting HALT unless the holder is closed (R11, R13) or the station is strapped to index 0
(R21). -/
def State.raiseHalt (s : State) (e : Event) : State :=
  if s.link.haltClosed || decide (s.boot.index = 0) then s
  else
    { s with
      link :=
        { s.link with
          haltWaiting :=
            some { id := s.link.serial, payload := .halt (BitVec.ofNat 8 e.priority) (s.boot.index.setWidth 8) }
          serial := s.link.serial + 1 } }

/-- The handoff FIFO takes an offer: fewer than 8 entries, and DUPLICATE_INDEX not latched (R11, R15). -/
def State.handoffRoom (s : State) : Bool := decide (s.link.handoffFifo.length < 8) && !s.events.has .duplicateIndex

/-- An accepted offer joins the tail of the handoff FIFO (R15). -/
def State.pushHandoff (s : State) (p : Payload) : State :=
  { s with
    link :=
      { s.link with
        handoffFifo := s.link.handoffFifo ++ [{ id := s.link.serial, payload := p }]
        serial := s.link.serial + 1 } }

/-- The general FIFO takes all the parts of a page, or none (R16, R11). -/
def State.offerReports (s : State) (parts : List Payload) : State :=
  if s.link.generalFifo.length + parts.length ≤ 4 ∧ s.events.has .duplicateIndex = false then
    { s with
      link :=
        { s.link with
          generalFifo := s.link.generalFifo ++ parts.zipIdx.map fun (p, k) => { id := s.link.serial + k, payload := p }
          serial := s.link.serial + parts.length } }
  else s

/-! ### Events of priority 9 to 18, and refusals -/

/-- Sets an event's flag (R200). -/
def State.flag (s : State) (e : Event) : State := { s with events := s.events.set e }

/-- Records a refusal (R203). -/
def State.refuse (s : State) (k : FrameKind) (c : RefusalCause) : State := { s with events := s.events.refuse k c }

/-! ### Reject causes and notices (R78, R86, R137) -/

/-- The feature is the PANEL of this number. -/
def Feature.isPanel (f : Feature) (number : Nat) : Bool :=
  match f.body with
  | .panel p => decide (p.number = number)
  | .splice _ _ => false

/-- The PANEL of a number, when it is in the list. -/
def State.panel? (s : State) (number : Nat) : Option Panel := (s.map.features.find? fun f => f.isPanel number).bind Feature.panel?

/-- A change of the fields of a PANEL. -/
def Feature.mapPanel (f : Feature) (g : Panel → Panel) : Feature :=
  match f.body with
  | .panel p => { f with body := .panel (g p) }
  | .splice _ _ => f

/-- A cause recorded where there is none (R78). -/
def Panel.withCause (p : Panel) (c : RejectCause) : Panel :=
  match p.cause with
  | some _ => p
  | none => { p with cause := some c }

/-- The stretch reference with its rejected flag set, when it is the panel of this number (R69, R78). -/
def rejectRef (ref : Option StretchRef) (number : Nat) : Option StretchRef :=
  ref.map fun r => if r.number = number then { r with rejected := true } else r

/-- The plan after the panel of this number has taken a cause: the origin keeps the first cause of its last created panel (R93). -/
def State.planAfter (s : State) (number : Nat) (c : RejectCause) : PlanQueue :=
  match s.plan.lastCreated with
  | some p =>
    if s.cfg.origin = true ∧ p.number = number ∧ p.cause = none then
      { s.plan with lastCreated := some { p with cause := some c } }
    else s.plan
  | none => s.plan

/-- A reject cause is set on a panel of the list; the first cause is kept (R78). -/
def State.setCause (s : State) (number : Nat) (c : RejectCause) : State :=
  match s.panel? number with
  | some p =>
    if p.cause.isNone then
      { s with
        plan := s.planAfter number c
        map := { s.map with features := modifyFirst (fun f => f.isPanel number) (fun f => f.mapPanel fun q => q.withCause c) s.map.features }
        tracker := { s.tracker with ref := rejectRef s.tracker.ref number } }
    else s
  | none => s

/-- A REJECT notice for a panel that has left the list (R86). -/
def State.rejectNotice (s : State) (number : Nat) (cause : Byte) : State :=
  if s.isLast then s.flag .lateReject
  else if s.handoffRoom then s.pushHandoff (.handoffReject (BitVec.ofNat 32 number) cause)
  else s.flag .lateReject

/-- A block of the station condemns a panel that has left the list: a notice is offered, save at the last station (R86). The origin keeps
the cause of its last created panel with the offer, even where the full FIFO drops the notice (R93, log 44). -/
def State.noticeOf (s : State) (number : Nat) (c : RejectCause) : State :=
  let t := s.rejectNotice number (BitVec.ofNat 8 c.code)
  { t with plan := if s.isLast then t.plan else s.planAfter number c }

/-- A block of the station condemns a panel: on its record while it is in the list, by a notice when it has left (R78, R86, R137,
R177). -/
def State.condemn (s : State) (number : Nat) (c : RejectCause) : State :=
  if (s.panel? number).isSome then s.setCause number c else s.noticeOf number c

/-! ### The Sequencer's abort (R130, R149, R152) -/

/-- The panel at the blade is given up: its cause is set and its play ends in RUNOUT (R130, R137). -/
def State.abandonPanel (s : State) (c : RejectCause) : State :=
  match s.seq.current with
  | some ctx =>
    let t := s.condemn ctx.panel c
    { t with seq := { t.seq with state := .runout, play := none } }
  | none => { s with seq := { s.seq with state := .runout, play := none } }

/-- Entry into HELD in LEAD_IN or FOLDING (R152). -/
def State.heldAbort (s : State) : State :=
  match s.seq.state with
  | .leadIn | .folding => s.abandonPanel .halted
  | .idle | .tail | .runout => s

/-! ### The Splice Unit (R183 to R196) -/

def Splice.roll (u : Splice) : Side → Roll
  | .a => u.rollA
  | .b => u.rollB

def Splice.setRoll (u : Splice) (side : Side) (r : Roll) : Splice :=
  match side with
  | .a => { u with rollA := r }
  | .b => { u with rollB := r }

def Side.other : Side → Side
  | .a => .b
  | .b => .a

/-- The position whose record stands in a state, A first. -/
def Splice.sideIn (u : Splice) (st : RollState) : Option Side :=
  if u.rollA.state = st then some .a else if u.rollB.state = st then some .b else none

/-- The incoming position (R183). -/
def Splice.incoming (u : Splice) : Option Side :=
  match u.state with
  | .pasting | .cutting => (u.sideIn .expiring).map Side.other
  | .idle | .armed | .matching | .inhibited => (u.sideIn .active).map Side.other

/-- The incoming position is LOADED. -/
def Splice.incomingLoaded (u : Splice) : Bool :=
  match u.incoming with
  | some side => decide ((u.roll side).state = .loaded)
  | none => false

/-- MATCHING is left for another state: v_new becomes 0 and its timers stop (R186, R191, R192). -/
def State.leaveMatching (s : State) (goal : SpliceState) : State :=
  let t := s.setVNew 0
  { t with splice := { t.splice with state := goal, rampTimer := none, matchTimer := none, matchTimeout := none } }

/-- The test of R188: ARMED with the incoming position LOADED in RUN moves to MATCHING. -/
def State.tryMatching (s : State) : State :=
  if s.splice.state = .armed ∧ s.splice.incomingLoaded = true ∧ s.line.state = .run then
    let t := s.setVNew 0
    { t with
      splice :=
        { t.splice with
          state := .matching
          rampTimer := some 1000
          matchTimeout := some 10000000
          matchTimer := if t.matchCondition then some 200000 else none } }
  else s

/-- The ACTIVE roll has a remaining of SPLICE_AT or less (R187). -/
def State.armingDue (s : State) : Bool :=
  match s.splice.sideIn .active with
  | some side =>
    match (s.splice.roll side).remaining with
    | some r => decide (r ≤ s.cfg.spliceAt)
    | none => false
  | none => false

/-- The arming test of R187, with the test of R188 at once. -/
def State.armTest (s : State) : State :=
  if s.splice.state = .idle ∧ s.armingDue = true then
    State.tryMatching { s with splice := { s.splice with state := .armed } }
  else s

/-- What a change of line state does to the Splice Unit (R188, R192). -/
def State.spliceOnLine (s : State) : State :=
  match s.splice.state with
  | .matching => if s.line.state = .run then s else s.leaveMatching .armed
  | .armed => s.tryMatching
  | .idle | .pasting | .cutting | .inhibited => s

/-! ### The line state (R35 to R40) -/

/-- Zones leave band at every line state other than RUN and STOPPING; they come into band at a sample only (R165, log 8). -/
def bandsAt (st : LineState) (zones : List Zone) : List Zone :=
  match st with
  | .run | .stopping => zones
  | .starting | .standby | .halting | .held => zones.map fun z => { z with inBand := false }

/-- The line state becomes `st`, with what follows from it in the zones, the Splice Unit and, at HELD, the Sequencer (R152, R165, R188,
R192). -/
def State.enterLine (s : State) (st : LineState) : State :=
  let t := State.spliceOnLine
    { s with
      line := { s.line with state := st }
      steam := { s.steam with zones := bandsAt st s.steam.zones } }
  if st = .held then t.heldAbort else t

/-- STOPPING and HALTING pass on when v_cmd is 0 (R39). -/
def State.passOn (s : State) : State :=
  if s.line.vCmd = 0 then
    match s.line.state with
    | .stopping => s.enterLine .standby
    | .halting => s.enterLine .held
    | .starting | .standby | .run | .held => s
  else s

/-- A halt moves the line state: RUN and STOPPING to HALTING, STANDBY to HELD, and the halt origin index is taken; the other states stay
(R37, R38). -/
def State.haltLine (s : State) (origin : Byte) : State :=
  match s.line.state with
  | .run | .stopping => State.passOn (State.enterLine { s with line := { s.line with haltOrigin := origin } } .halting)
  | .standby => State.enterLine { s with line := { s.line with haltOrigin := origin } } .held
  | .halting | .held | .starting => s

/-- The station's own index as a HALT carries it. -/
def State.ownIndex (s : State) : Byte := s.boot.index.setWidth 8

/-- An event is latched (R200): its flag is set; one of the halt class moves the line state (R37) and raises a HALT (R13). -/
def State.latch (s : State) (e : Event) : State :=
  if e.isHalt then
    let t := State.haltLine (s.flag e) s.ownIndex
    t.raiseHalt e
  else s.flag e

/-- DUPLICATE_INDEX is latched (R10): the beacon holder and the FIFOs are emptied, and after its own HALT the HALT holder takes no
other until reset (R11). -/
def State.latchDuplicate (s : State) : State :=
  let t := s.latch .duplicateIndex
  { t with
    link :=
      { t.link with
        haltClosed := true
        beaconWaiting := none
        beaconOnLine := none
        handoffFifo := []
        generalFifo := [] } }

/-! ### Speeds that change (R51, R52, R189, R190) -/

/-- STEP0, and v_new in PASTING and CUTTING, follow a changed local speed (R51, R189). -/
def State.followLocal (old s : State) : State :=
  if s.localSpeed = old.localSpeed then s
  else
    let t := s.feedStep
    match t.splice.state with
    | .pasting | .cutting => t.setVNew t.localSpeed
    | .idle | .armed | .matching | .inhibited => t

/-- A timer that runs while a condition holds: started when it becomes true, stopped when it becomes false (R52, R190). -/
def conditionTimer (before after : Bool) (time : Nat) (t : Timer) : Timer :=
  if after then (if before then t else some time) else none

/-- The drive supervision after a change of measured or local speed (R52). -/
def State.superviseDrive (old s : State) : State :=
  { s with line := { s.line with driveTimer := conditionTimer old.driveCondition s.driveCondition 500000 s.line.driveTimer } }

/-- The match condition in MATCHING after a change of surface or local speed (R190). -/
def State.superviseMatch (old s : State) : State :=
  match s.splice.state with
  | .matching =>
    { s with
      splice := { s.splice with matchTimer := conditionTimer old.matchCondition s.matchCondition 200000 s.splice.matchTimer } }
  | .idle | .armed | .pasting | .cutting | .inhibited => s

/-- What follows from a change of v_cmd, q_in or a measured speed between `old` and `s`. -/
def State.afterSpeeds (old s : State) : State :=
  (State.superviseMatch old (State.superviseDrive old (State.followLocal old s)))

/-- q_in re-taken from the nearest FRESH upstream member, held when there is none, 65,536 at the origin; from DONE on (R46). -/
def State.retakeQIn (s : State) : State :=
  if s.ready && !s.cfg.origin then
    match s.nearestFresh with
    | some i =>
      match (s.line.peer i).qOut with
      | some q => { s with line := { s.line with qIn := clamp 1 65536 q } }
      | none => s
    | none => s
  else s

/-! ### Resets (R18) -/

/-- The state at the start of a reset: every volatile item at its reset value, the array kept (R17, R18, R31, R41, R48, R73, R94, R119,
R153, R169, R182, R198, R204), the waiting commands and the free counter kept. -/
def State.volatileReset (s : State) (cause : ResetCause) (phase : StartPhase) : State :=
  { State.reset with
    pending := s.pending
    boot := { Boot.reset with phase := phase }
    events := EventLatch.reset cause
    store := Store.reset s.store.nv s.store.counter
    free := s.free }

end Sys2Proof.Machine
end

