-- ==== Sys2Proof/Machine/Geometry.lean ====
section
/-! DEFINITION. The fold geometry arithmetic: graded folds, consumption, the checks of PAT_CLOSE, the panel figures, scaling by stretch,
and the walk of a pattern in play order with its Repeat Stack (R103, R104, R120 to R130, R143 to R145). -/

namespace Sys2Proof.Machine

/-! ### Graded folds (R120) -/

/-- The graded face F_k (R120). -/
def gradedFace (face : Nat) (grade : Int) (k : Nat) : Nat := (clampInt 200 8000 (face + k * grade)).toNat

/-- The graded depth D_k (R120). -/
def gradedDepth (depth : Nat) (grade : Int) (k : Nat) : Nat := (clampInt 100 4000 (depth + k * grade)).toNat

/-- The nominal consumption of repetition k (R120, log 43). -/
def foldConsumption (face depth : Nat) (gf gd : Int) (k : Nat) : Nat := gradedFace face gf k + 2 * gradedDepth depth gd k

/-! ### Sums over an expanded pattern (R104, R127) -/

/-- A sum over the expansion of a pattern as it is walked once: the sum so far of the group being read, the open groups with their
counts and the sums before them, and the sum of one pass of the group last closed. -/
structure Meter where
  total : Nat
  stack : List (Nat × Nat)
  last : Nat
  deriving DecidableEq, Repr

/-- One entry into the sum: a group weighs its count times its contents, a MIRROR the contents of the group just closed, once
(R104). `extra` is added for each move of the walk through a GROUP, an END, or a MIRROR. -/
def Meter.take (weight : Entry → Nat) (extra : Nat) (m : Meter) (e : Entry) : Meter :=
  match e with
  | .fold .. | .flat _ => { m with total := m.total + weight e }
  | .group c => { m with total := 0, stack := (c, m.total + extra) :: m.stack }
  | .close =>
    match m.stack with
    | (c, before) :: rest => { total := before + c * (m.total + extra), stack := rest, last := m.total }
    | [] => m
  | .mirror => { m with total := m.total + m.last + 2 * extra }

/-- The sum of a weight over the expanded pattern. -/
def expandedSum (weight : Entry → Nat) (extra : Nat) (es : List Entry) : Nat :=
  (es.foldl (Meter.take weight extra) { total := 0, stack := [], last := 0 }).total

/-- What one entry consumes: a FOLD the sum over its repetitions, a FLAT its length (R104). -/
def entryConsumption : Entry → Nat
  | .fold _ f d r gf gd => ((List.range r).map (foldConsumption f d gf gd)).sum
  | .flat l => l
  | .group _ | .close | .mirror => 0

/-- The depths of one entry's repetitions (R127). -/
def entryDepths : Entry → Nat
  | .fold _ _ d r _ gd => ((List.range r).map (gradedDepth d gd)).sum
  | .flat _ | .group _ | .close | .mirror => 0

/-- The expanded consumption (R104). -/
def expandedConsumption (es : List Entry) : Nat := expandedSum entryConsumption 0 es

/-! ### The structure check (R103) -/

/-- The walk of the structure check: the open groups, innermost first, each with whether its contents hold a GROUP; and whether the
entry just before is an END of a group without one. -/
structure StructureWalk where
  isOpen : List Bool
  afterPlainEnd : Bool
  deriving DecidableEq, Repr

/-- One entry of the structure check; none when the check fails (R103). -/
def structureStep (w : Option StructureWalk) (e : Entry) : Option StructureWalk :=
  match w with
  | none => none
  | some w =>
    match e with
    | .fold .. | .flat _ => some { w with afterPlainEnd := false }
    | .group _ =>
      if w.isOpen.length < 4 then
        some
          { isOpen := false :: (match w.isOpen with
              | [] => []
              | _ :: rest => true :: rest)
            afterPlainEnd := false }
      else none
    | .close =>
      match w.isOpen with
      | [] => none
      | holdsGroup :: rest => some { isOpen := rest, afterPlainEnd := !holdsGroup }
    | .mirror => if w.afterPlainEnd then some { w with afterPlainEnd := false } else none

/-- Groups balanced, nested no deeper than 4, each MIRROR after the END of a group without a GROUP (R103). -/
def structureGood (es : List Entry) : Bool :=
  match es.foldl structureStep (some { isOpen := [], afterPlainEnd := false }) with
  | some w => w.isOpen.isEmpty
  | none => false

/-- The length check (R104). -/
def lengthGood (nominal leadIn : Nat) (es : List Entry) : Bool := decide (leadIn + expandedConsumption es ≤ nominal)

/-! ### Panel figures (R127, R128) -/

/-- The output length (R127). -/
def Pattern.outputLength (p : Pattern) : Nat := p.nominal - 2 * expandedSum entryDepths 0 p.entries

/-- q_panel (R128). -/
def Pattern.qPanel (p : Pattern) : Nat := 65536 * p.outputLength / p.nominal

/-- The smallest consumption among one entry's repetitions. -/
def entryCMin : Entry → Option Nat
  | .fold _ f d r gf gd => ((List.range r).map (foldConsumption f d gf gd)).min?
  | .flat _ | .group _ | .close | .mirror => none

/-- C_min; absent without a repetition (R128). Every FOLD of a pattern is played, since every count is 1 or more. -/
def Pattern.cMin (p : Pattern) : Option Nat := (p.entries.filterMap entryCMin).min?

/-! ### The walk in play order (R143 to R145) -/

def Hand.swapped : Hand → Hand
  | .left => .right
  | .right => .left

/-- An element of the length list (R121). -/
inductive Element where
  | fold (consumption : Nat) (hand : Hand) (depth : Nat)
  | flat (length : Nat)
  deriving DecidableEq, Repr

/-- What one move of the walk gives. -/
inductive WalkMove where
  | finished
  | moved (p : Play)
  | yielded (e : Element) (p : Play)
  deriving DecidableEq, Repr

/-- A move of the walk in forward play (R143, R144, R145). -/
def walkForward (es : List Entry) (p : Play) : WalkMove :=
  match es[p.pointer]? with
  | none => .finished
  | some (.fold hand f d r gf gd) =>
    let k := p.rep.getD 0
    let e := Element.fold (foldConsumption f d gf gd k) hand (gradedDepth d gd k)
    if k + 1 < r then .yielded e { p with rep := some (k + 1) } else .yielded e { p with rep := none, pointer := p.pointer + 1 }
  | some (.flat l) => .yielded (.flat l) { p with pointer := p.pointer + 1 }
  | some (.group c) =>
    .moved { p with pointer := p.pointer + 1, stack := { start := p.pointer + 1, remaining := c, mirror := none } :: p.stack }
  | some .close =>
    match p.stack with
    | top :: rest =>
      if 1 < top.remaining then
        .moved { p with pointer := top.start, stack := { top with remaining := top.remaining - 1 } :: rest }
      else .moved { p with pointer := p.pointer + 1, stack := rest, lastClosed := some (top.start, p.pointer) }
    | [] => .moved { p with pointer := p.pointer + 1 }
  | some .mirror =>
    match p.lastClosed with
    | some (start, close) =>
      .moved { p with pointer := close - 1, stack := { start := start, remaining := 1, mirror := some p.pointer } :: p.stack }
    | none => .moved { p with pointer := p.pointer + 1 }

/-- A move of the walk in a mirrored replay, backward from the END to the GROUP (R143, R145). -/
def walkBackward (es : List Entry) (p : Play) (top : RepeatFrame) (mirrorAt : Nat) : WalkMove :=
  if p.pointer < top.start then .moved { p with pointer := mirrorAt + 1, stack := p.stack.tail }
  else
    match es[p.pointer]? with
    | some (.fold hand f d r gf gd) =>
      let k := p.rep.getD (r - 1)
      let e := Element.fold (foldConsumption f d gf gd k) (Hand.swapped hand) (gradedDepth d gd k)
      if 0 < k then .yielded e { p with rep := some (k - 1) } else .yielded e { p with rep := none, pointer := p.pointer - 1 }
    | some (.flat l) => .yielded (.flat l) { p with pointer := p.pointer - 1 }
    | some (.group _) | some .close | some .mirror | none => .moved { p with pointer := p.pointer - 1 }

/-- One move of the walk. -/
def walkMove (es : List Entry) (p : Play) : WalkMove :=
  match p.stack with
  | top :: _ =>
    match top.mirror with
    | some m => walkBackward es p top m
    | none => walkForward es p
  | [] => walkForward es p

/-! ### Scaling and strike positions (R122 to R125) -/

/-- A nominal length scaled by s with the remainder, and added to the running position (R123). -/
def Play.addLength (p : Play) (s x : Nat) : Play :=
  { p with
    position := ahead p.position ((x * s + p.remainder) / 65536)
    remainder := (x * s + p.remainder) % 65536
    computed := p.computed + 1 }

/-- Elements computed up to and including the next repetition, whose position becomes outstanding; none outstanding when no
repetition remains (R124, R125). `fuel` bounds the moves of the walk (log 32). -/
def Play.toNextStrike (es : List Entry) (s : Nat) : Nat → Play → Play
  | 0, p => { p with strike := none }
  | fuel + 1, p =>
    match walkMove es p with
    | .finished => { p with strike := none }
    | .moved q => Play.toNextStrike es s fuel q
    | .yielded (.flat l) q => Play.toNextStrike es s fuel (q.addLength s l)
    | .yielded (.fold c hand d) q =>
      let r := q.addLength s c
      { r with strike := some { pos := r.position, hand := hand, depth := d } }

/-- The number of moves a whole walk of the pattern makes, and more. -/
def walkFuel (es : List Entry) : Nat :=
  expandedSum (fun e => match e with
    | .fold _ _ _ r _ _ => r
    | .flat _ => 1
    | .group _ | .close | .mirror => 0) 1 es + 1

/-- The play set up at a base position (R122) with the lead-in as the first element (R121), and the elements up to the first
repetition (R124). A FLAT context has a lead-in of 0 and nothing else (R128). -/
def Play.setUp (base : Pos) (pattern : Option Pattern) (s : Nat) : Play :=
  let p : Play :=
    { pointer := 0, rep := none, stack := [], lastClosed := none, position := base, remainder := 0, computed := 0, strike := none }
  match pattern with
  | some pat => Play.toNextStrike pat.entries s (walkFuel pat.entries) (p.addLength s pat.leadIn)
  | none => p.addLength s 0

/-- The next strike position, computed at a strike; when no repetition remains the elements after the last are not computed
(R125, log 31). -/
def Play.nextStrike (p : Play) (pattern : Option Pattern) (s : Nat) : Play :=
  match pattern with
  | some pat =>
    let q := Play.toNextStrike pat.entries s (walkFuel pat.entries) p
    match q.strike with
    | some _ => q
    | none => { q with position := p.position, remainder := p.remainder, computed := p.computed }
  | none => { p with strike := none }

/-! ### Panel Contexts (R133, R136) -/

/-- A context whose copy is outstanding (R133). -/
def Context.outstanding (panel id : Nat) (entry : Pos) (nominal : Option Nat) : Context :=
  { panel := panel, id := id, entry := entry, nominal := nominal, pattern := none, outLen := none, qPanel := 65536, cMin := none
    delivered := false }

/-- A FLAT context (R128, R136). -/
def Context.flat (panel id : Nat) (entry : Pos) (nominal : Option Nat) : Context :=
  { panel := panel, id := id, entry := entry, nominal := nominal, pattern := none, outLen := nominal, qPanel := 65536, cMin := none
    delivered := true }

/-- A context with its copy delivered (R127, R128, R134, R136). -/
def Context.deliver (c : Context) (found : Option Pattern) : Context :=
  match found with
  | some p => { c with pattern := some p, outLen := some p.outputLength, qPanel := p.qPanel, cMin := p.cMin, delivered := true }
  | none => { c with pattern := none, outLen := c.nominal, qPanel := 65536, cMin := none, delivered := true }

end Sys2Proof.Machine
end

