-- ==== Sys2Proof/Machine/StoreOps.lean ====
section
/-! DEFINITION. The Pattern Store's array, slot table, operation FIFO and read port, and what a stopped operation leaves (R97, R105, R108
to R118). -/

namespace Sys2Proof.Machine

/-! ### Slots -/

def Store.record (st : Store) (i : Fin 32) : SlotRecord := st.table[i.val]

def Store.setRecord (st : Store) (i : Fin 32) (r : SlotRecord) : Store := { st with table := st.table.set i.val r }

def Store.cell (st : Store) (i : Fin 32) : Option NvRecord := st.nv[i.val]

def Store.setCell (st : Store) (i : Fin 32) (c : Option NvRecord) : Store := { st with nv := st.nv.set i.val c }

/-- The slot of an id in a state, lowest first. -/
def Store.slotOf (st : Store) (state : SlotState) (id : Nat) : Option (Fin 32) :=
  allSlots.find? fun i => decide ((st.record i).state = state) && decide ((st.record i).id = some id)

/-- The VALID slot of an id (R112). -/
def Store.validSlot (st : Store) (id : Nat) : Option (Fin 32) := st.slotOf .valid id

/-- What a lookup of an id finds: the pattern of its VALID slot (R112). -/
def Store.lookup (st : Store) (id : Nat) : Option Pattern :=
  match st.validSlot id with
  | some i => (st.cell i).map NvRecord.pattern
  | none => none

/-- The lowest EMPTY slot (R106). -/
def Store.emptySlot (st : Store) : Option (Fin 32) := allSlots.find? fun i => decide ((st.record i).state = .empty)

/-- The version the next completion gives: the counter stands still at its end (R111). A spoilt cell reads as 0 (R117). -/
def Store.nextVersion (st : Store) : Nat := min (st.counter.getD 0 + 1) 4294967295

/-! ### NV operations (R108 to R110) -/

/-- The time of an operation, in microseconds, without suspensions: 20 ms and 0.25 ms for each entry, or 45 ms (R109, R110). -/
def opDuration : NvOp → Nat
  | .program _ p => 20000 + 250 * p.entries.length
  | .erase _ => 45000

/-- The head operation begins when none runs and no lookup is being served (R108): a program's slot is no longer clean (R116), an
erase's slot turns from RETIRED to ERASING (R110). -/
def Store.beginOp (st : Store) : Store :=
  match st.phase, st.serving, st.ops with
  | none, none, op :: _ =>
    let t := { st with phase := some .writing, opTime := opDuration op }
    match op with
    | .program i p => t.setCell i (some { pattern := p, version := 0, marker := false, checkGood := false, retired := false })
    | .erase i => t.setRecord i { t.record i with state := .erasing }
  | _, _, _ => st

/-- An operation joins the FIFO, and begins when it may (R108). -/
def Store.queueOp (st : Store) (op : NvOp) : Store := Store.beginOp { st with ops := st.ops ++ [op] }

/-- The running operation leaves the FIFO (R108). -/
def Store.dropOp (st : Store) : Store := { st with ops := st.ops.tail, phase := none, opTime := 0 }

/-- The completion of a program (R109), before the next operation begins. -/
def Store.completeProgram (st : Store) (i : Fin 32) (p : Pattern) : Store :=
  let v := st.nextVersion
  let old := (allSlots.find? fun j =>
    decide (j ≠ i) && decide ((st.record j).state = .valid) && decide ((st.record j).id = some p.id))
  let t := Store.dropOp { st with counter := some v }
  let t := t.setCell i (some { pattern := p, version := v, marker := true, checkGood := true, retired := false })
  let t := t.setRecord i { state := .valid, id := some p.id, version := some v, count := some p.entries.length }
  match old with
  | some j =>
    let t := t.setCell j ((t.cell j).map fun r => { r with retired := true })
    let t := t.setRecord j { t.record j with state := .retired }
    { t with ops := t.ops ++ [.erase j] }
  | none => t

/-- The completion of an erase (R110), before the next operation begins. -/
def Store.completeErase (st : Store) (i : Fin 32) : Store := ((st.dropOp).setCell i none).setRecord i SlotRecord.cleared

/-! ### The read port (R112 to R115) -/

/-- The service time in microseconds (R112). -/
def serviceTime (l : Lookup) (found : Option Pattern) : Nat :=
  match l.requester, found with
  | .webMap, _ => 10
  | .insertion, some p | .lateCopy, some p => 10 + 2 * p.entries.length
  | .insertion, none | .lateCopy, none => 10

/-- The port begins to serve a lookup: what it finds is what the table holds now (R112, R115). -/
def Store.serve (st : Store) (l : Lookup) : Store :=
  { st with serving := some { lookup := l, found := st.lookup l.id, time := serviceTime l (st.lookup l.id) } }

/-- The free port serves the oldest waiting Sequencer lookup, else the oldest waiting Web Map lookup (R113). -/
def Store.serveNext (st : Store) : Store :=
  match st.seqWaiting, st.mapWaiting with
  | l :: rest, _ => Store.serve { st with seqWaiting := rest } l
  | [], l :: rest => Store.serve { st with mapWaiting := rest } l
  | [], [] => st

def Store.waiting (st : Store) : Bool := !st.seqWaiting.isEmpty || !st.mapWaiting.isEmpty

/-- The port goes on as far as it can at once: it serves when it is free and no operation is in the way, sets a WRITING operation aside,
and lets a SUSPENDED one resume when no lookup waits (R113, R114). -/
def Store.portGoOn (st : Store) : Store :=
  match st.serving with
  | some _ => st
  | none =>
    if st.waiting then
      match st.phase with
      | none | some .suspended => st.serveNext
      | some .writing => { st with phase := some .suspending }
      | some .suspending | some .resuming => st
    else
      match st.phase with
      | some .suspended => { st with phase := some .resuming }
      | none | some .writing | some .suspending | some .resuming => st

/-- A lookup is asked for (R112). -/
def Store.request (st : Store) (l : Lookup) : Store :=
  match l.requester with
  | .webMap => Store.portGoOn { st with mapWaiting := st.mapWaiting ++ [l] }
  | .insertion | .lateCopy => Store.portGoOn { st with seqWaiting := st.seqWaiting ++ [l] }

/-- The lookup in service ends: an operation that waited for it begins, and the port goes on (R108, R113, log 9). -/
def Store.endService (st : Store) : Store := Store.portGoOn (Store.beginOp { st with serving := none })

/-- The lookup is the panel's insertion lookup by the Sequencer (R134). -/
def Lookup.isInsertionOf (l : Lookup) (panel : Nat) : Bool := decide (l.requester = .insertion) && decide (l.panel = panel)

/-- The panel's insertion lookup waits or is in service (R135). -/
def Store.insertionOutstanding (st : Store) (panel : Nat) : Bool :=
  (st.seqWaiting.any fun l => l.isInsertionOf panel) ||
    match st.serving with
    | some v => v.lookup.isInsertionOf panel
    | none => false

/-! ### Interrupted operations (R116) -/

/-- What stopping a program leaves (R116, R117, log 5). Only its completion step, which runs in WRITING, can have been cut short; set aside, it
leaves its slot without a completion marker, as `Store.beginOp` left it, and the rest of the array as it was. -/
def Store.tearProgram (st : Store) (i : Fin 32) (p : Pattern) (tear : NvTear) : Store :=
  let v := st.nextVersion
  let t := st.setCell i
    (some { pattern := p, version := v, marker := tear.completed, checkGood := tear.completed, retired := false })
  let t :=
    if tear.completed && tear.oldRetired then
      match st.validSlot p.id with
      | some j => t.setCell j ((t.cell j).map fun r => { r with retired := true })
      | none => t
    else t
  { t with
    counter :=
      match tear.counter with
      | .behind => st.counter
      | .written => some v
      | .spoilt => none }

/-- What stopping the running operation leaves in the array (R116, log 5): an erase in any phase leaves its slot neither clean nor complete, or
still complete with its retirement mark. -/
def Store.tearOp (st : Store) (tear : NvTear) : Store :=
  match st.phase, st.ops with
  | some .writing, .program i p :: _ => st.tearProgram i p tear
  | some _, .erase i :: _ =>
    if tear.eraseLeftWhole then st else st.setCell i ((st.cell i).map fun r => { r with checkGood := false })
  | _, _ => st

/-- A reset or a power failure stops what runs in the array: an operation of the FIFO, or an erase of the start-up scan, whose slot the
next scan finds torn (R116, R118, log 21). The scan's write-back of the version counter is never the thing stopped: SCAN_READ_COMPLETE
writes it whole (R117, R118, log 46). -/
def State.stopArray (s : State) : State :=
  match s.store.phase with
  | some _ => { s with store := s.store.tearOp (Config.nvTear s.free), free := s.free + 1 }
  | none =>
    match s.boot.scanMarks with
    | i :: _ => { s with store := s.store.setCell i ((s.store.cell i).map fun r => { r with checkGood := false }) }
    | [] => s

/-- A reset of a kind (R18): what runs in the array stops where it stands, and every volatile item returns to its reset value. -/
def State.startReset (s : State) (cause : ResetCause) (phase : StartPhase) : State := (s.stopArray).volatileReset cause phase

/-! ### The start-up scan (R117, R118) -/

/-- Completion marker present and slot check good (R117). -/
def NvRecord.complete (r : NvRecord) : Bool := r.marker && r.checkGood

/-- A complete, unretired slot. -/
def Store.candidate (st : Store) (i : Fin 32) : Option NvRecord :=
  match st.cell i with
  | some r => if r.complete && !r.retired then some r else none
  | none => none

/-- Slot `j` is kept rather than slot `i`, whose record is `r`: it holds the same id in a higher version, or in the same
version at a lower number (R118). -/
def Store.outranks (st : Store) (i : Fin 32) (r : NvRecord) (j : Fin 32) : Bool :=
  match st.candidate j with
  | some q => decide (q.pattern.id = r.pattern.id) && (decide (r.version < q.version) || (decide (q.version = r.version) && decide (j < i)))
  | none => false

/-- The scan keeps the slot (R118). -/
def Store.kept (st : Store) (i : Fin 32) : Option NvRecord :=
  match st.candidate i with
  | some r => if allSlots.any (st.outranks i r) then none else some r
  | none => none

/-- The slots the scan marks for erasure, in slot order (R118). -/
def Store.scanMarks (st : Store) : List (Fin 32) := allSlots.filter fun i => (st.cell i).isSome && (st.kept i).isNone

/-- The slot table the scan builds (R118). -/
def Store.scanTable (st : Store) : Vector SlotRecord 32 :=
  Vector.ofFn fun i =>
    match st.kept i with
    | some r => { state := .valid, id := some r.pattern.id, version := some r.version, count := some r.pattern.entries.length }
    | none =>
      match st.cell i with
      | some r => { state := .erasing, id := some r.pattern.id, version := some r.version, count := some r.pattern.entries.length }
      | none => SlotRecord.cleared

/-- The counter after the scan: the greater of the stored value and the highest version among all complete slots (R118). -/
def Store.scanCounter (st : Store) : Nat :=
  (allSlots.filterMap fun i => (st.cell i).bind fun r => if r.complete then some r.version else none).foldl max (st.counter.getD 0)

end Sys2Proof.Machine
end

