-- ==== Sys2Proof/Machine/SeqOps.lean ====
section
/-! DEFINITION. The Pleat Sequencer's contexts and what it does when a panel or a splice reaches the blade (R132 to R142, R150,
R151). -/

namespace Sys2Proof.Machine

/-! ### The next context (R132 to R136) -/

/-- A lookup is asked for (R112). -/
def State.requestLookup (s : State) (l : Lookup) : State := { s with store := s.store.request l }

/-- The next panel: the first PANEL of the list that has not yet reached the blade, with its feature (R132). -/
def State.nextPanel (s : State) : Option (Panel × Feature) :=
  match s.map.features.find? fun f => f.panel?.isSome && !f.reached with
  | some f => f.panel?.map fun p => (p, f)
  | none => none

/-- The next context belongs to the panel. -/
def State.nextIs (s : State) (number : Nat) : Bool :=
  match s.seq.next with
  | some c => decide (c.panel = number)
  | none => false

/-- The next context is settled for the next panel (R135, R136): kept when it is that panel's; FLAT for pattern id 0; OUTSTANDING while the
panel's insertion lookup is outstanding; else a late copy is asked for, whatever late copy of an earlier turn is still to come (log 18). -/
def State.settleNext (s : State) : State :=
  if s.cfg.blade then
    match s.nextPanel with
    | none => { s with seq := { s.seq with next := none } }
    | some (p, f) =>
      if s.nextIs p.number then s
      else if p.pattern = 0 then { s with seq := { s.seq with next := some (Context.flat p.number 0 f.entry p.nominal) } }
      else
        let t := { s with seq := { s.seq with next := some (Context.outstanding p.number p.pattern f.entry p.nominal) } }
        if s.store.insertionOutstanding p.number then t
        else t.requestLookup { requester := .lateCopy, panel := p.number, id := p.pattern }
  else s

/-! ### Play (R122, R124, R138, R139) -/

/-- The current context is set up and its first strike computed: FOLDING with a first strike position, else TAIL (R122, R124, R138). -/
def State.startPlay (s : State) (c : Context) : State :=
  let p := Play.setUp (ahead c.entry s.cfg.bDist) c.pattern s.tracker.stretch
  { s with
    seq :=
      { s.seq with
        play := some p
        state := match p.strike with
          | some _ => .folding
          | none => .tail } }

/-- The current panel is truncated when the next reaches the blade in LEAD_IN or FOLDING (R140). -/
def State.truncate (s : State) : State :=
  match s.seq.state with
  | .leadIn | .folding => s.abandonPanel .truncated
  | .idle | .tail | .runout => s

/-- The context of a panel that reaches the blade: the next context, which is the panel's (R135, R138). -/
def State.contextFor (s : State) (p : Panel) (f : Feature) : Context :=
  match s.seq.next with
  | some c => if c.panel = p.number then c else Context.flat p.number p.pattern f.entry p.nominal
  | none => Context.flat p.number p.pattern f.entry p.nominal

/-- A PANEL reaches the blade (R138, R140, R141). -/
def State.panelAtBlade (s : State) (p : Panel) (f : Feature) : State :=
  let t := s.truncate
  let c := t.contextFor p f
  let t := { t with seq := { t.seq with current := some c, next := none, play := none } }
  let t :=
    match t.seq.clearPos with
    | some _ => State.condemn { t with seq := { t.seq with state := .runout } } p.number .spliced
    | none => if c.delivered then t.startPlay c else { t with seq := { t.seq with state := .leadIn } }
  t.settleNext

/-- A SPLICE reaches the blade (R150); a clear position already passed is absent at once (R151). -/
def State.spliceAtBlade (s : State) (entry : Pos) : State :=
  let clear := ahead (ahead entry s.cfg.bDist) s.cfg.spliceClear
  let t :=
    { s with seq := { s.seq with clearPos := if atOrBefore clear s.tracker.position then none else some clear } }
  match t.seq.state with
  | .leadIn | .folding | .tail => t.abandonPanel .spliced
  | .idle | .runout => t

/-- What the Sequencer of a blade station does with a feature that reaches the blade (R132). -/
def State.atBlade (s : State) (f : Feature) : State :=
  if s.cfg.blade then
    match f.body with
    | .panel p => s.panelAtBlade p f
    | .splice _ _ => s.spliceAtBlade f.entry
  else s

end Sys2Proof.Machine
end

