-- ==== Sys2Proof/Machine/MapOps.lean ====
section
/-! DEFINITION. The Web Map's insertion, exits, backlog and gate, the Tracker's placements and stretch, and the origin's splice (R62 to R70,
R75 to R82, R92, R93). -/

namespace Sys2Proof.Machine

/-! ### Insertion (R75 to R77) -/

/-- A feature placed after every feature at or before its own entry position (R75). -/
def insertFeature (f : Feature) : List Feature → List Feature
  | [] => [f]
  | x :: xs => if atOrBefore x.entry f.entry then x :: insertFeature f xs else f :: x :: xs

/-- The offered feature would be inserted: the list has room, and a PANEL's number is not in it (R76). -/
def State.hasRoomFor (s : State) (f : Feature) : Bool :=
  decide (s.map.features.length < 32) &&
    match f.body with
    | .panel p => !(s.map.features.any fun g => g.isPanel p.number)
    | .splice _ _ => true

/-- The lookups a new PANEL needs are asked for, the Sequencer's first (R77, R113, R134). -/
def State.askForPanel (s : State) (p : Panel) : State :=
  let t :=
    if s.cfg.blade && decide (p.pattern ≠ 0) then
      s.requestLookup { requester := .insertion, panel := p.number, id := p.pattern }
    else s
  if decide (p.pattern ≠ 0) && (p.nominal.isNone || decide (p.dose = .pending)) then
    t.requestLookup { requester := .webMap, panel := p.number, id := p.pattern }
  else t

/-- The tests of an offered feature: it is inserted, with what its insertion brings, or discarded, a full list latching MAP_FULL (R69, R76,
R77). -/
def State.insertOrDiscard (s : State) (f : Feature) : State :=
  if 32 ≤ s.map.features.length then s.latch .mapFull
  else if s.hasRoomFor f then
    let t := { s with map := { s.map with features := insertFeature f s.map.features } }
    match f.body with
    | .panel p => (t.askForPanel p).settleNext
    | .splice _ _ => { t with tracker := { t.tracker with guard := some f.entry } }
  else s

/-- A feature is offered for insertion: on a discard the Tracker's stretch reference becomes absent (R69, R76). -/
def State.offerFeature (s : State) (f : Feature) : State :=
  let t := s.insertOrDiscard f
  if s.hasRoomFor f then t else { t with tracker := { t.tracker with ref := none } }

/-- A new PANEL's record, with the fields its lookups are to fill (R74, R77). `nominal` is absent when it comes from a lookup (R89). -/
def State.newPanel (s : State) (number pattern : Nat) (nominal : Option Nat) (cause : Option RejectCause) (planDrawn : Bool) : Panel :=
  { number := number
    pattern := pattern
    nominal := nominal
    outLen :=
      if s.cfg.blade then
        (if pattern = 0 then
          match nominal with
          | some l => .value l
          | none => .asNominal
        else .pending)
      else .absent
    dose := if s.hasZones then (if pattern = 0 then .value s.cfg.doseDefault else .pending) else .absent
    cause := cause
    planDrawn := planDrawn }

def panelFeature (p : Panel) (entry : Pos) : Feature := { body := .panel p, entry := entry, overdue := false, reached := false }

def spliceFeature (number : Nat) (entry : Pos) : Feature :=
  { body := .splice number false, entry := entry, overdue := false, reached := false }

/-! ### Placements and stretch (R62 to R70) -/

/-- The splice guard allows an update between the reference's mark and `p` (R70). -/
def guardAllows (guard : Option Pos) (mark p : Pos) : Bool :=
  match guard with
  | none => true
  | some g => atOrBefore g mark || !atOrBefore g p

/-- The travel M and the length L of an update the conditions allow (R70). -/
def Tracker.stretchInputs (t : Tracker) (p : Pos) : Option (Nat × Nat) :=
  match t.ref with
  | some r =>
    match r.nominal with
    | some l =>
      let m := travel p r.mark
      if r.claimed = true ∧ r.rejected = false ∧ guardAllows t.guard r.mark p = true ∧ 0 < l ∧ (l : Int) ≤ 2 * m ∧ 2 * m ≤ 3 * l then
        some (m.toNat, l)
      else none
    | none => none
  | none => none

/-- The value computed for s (R70). -/
def stretchValue (m l : Nat) : Nat := (m * 65536 + l / 2) / l

/-- The update of s at a CLAIMED mark (R70). -/
def State.updateStretch (s : State) (p : Pos) : State :=
  match s.tracker.stretchInputs p with
  | some (m, l) =>
    let v := stretchValue m l
    let t := { s with tracker := { s.tracker with stretch := clamp 61440 69632 v } }
    if v < 61440 ∨ 69632 < v then t.flag .stretchClamp else t
  | none => s

/-- A placement: the PANEL is offered; at a CLAIMED mark s is then updated from the old reference (R70); the PANEL becomes the
stretch reference, or, when it was discarded, the reference becomes absent (R68, R69, R76). -/
def State.place (s : State) (p : Panel) (entry : Pos) (claimed : Bool) : State :=
  let room := s.hasRoomFor (panelFeature p entry)
  let t := s.insertOrDiscard (panelFeature p entry)
  let t := if claimed then t.updateStretch entry else t
  { t with
    tracker :=
      { t.tracker with
        ref :=
          if room then
            some { mark := entry, number := p.number, nominal := p.nominal, claimed := claimed, rejected := p.cause.isSome }
          else none } }

/-- A handoff claimed at a mark: the miss count is 0 and the PANEL is placed CLAIMED (R62, R63). -/
def State.claim (s : State) (h : PendingHandoff) (mark : Pos) : State :=
  let t := { s with tracker := { s.tracker with misses := 0 } }
  t.place (t.newPanel h.number h.pattern (some h.nominal) h.cause false) mark true

/-- A handoff placed SYNTHESIZED at its arrival position (R64): MARK_MISSED, and TRACK_LOST from the second miss on (R67). -/
def State.synthesize (s : State) (h : PendingHandoff) : State :=
  let t := s.place (s.newPanel h.number h.pattern (some h.nominal) h.cause false) h.arrival false
  let t := t.flag .markMissed
  let t := { t with tracker := { t.tracker with misses := min 255 (t.tracker.misses + 1) } }
  if 2 ≤ t.tracker.misses then t.latch .trackLost else t

/-- The oldest pending handoff is taken out as at its window's expiry (R64, R66). -/
def State.expireHandoff (s : State) : State :=
  match s.tracker.handoffs with
  | h :: rest => State.synthesize { s with tracker := { s.tracker with handoffs := rest } } h
  | [] => s

/-- The oldest unclaimed mark is discarded (R65, R66). -/
def State.discardMark (s : State) : State :=
  match s.tracker.marks with
  | _ :: rest => State.flag { s with tracker := { s.tracker with marks := rest } } .strayMark
  | [] => s

/-! ### Exit (R79 to R82) -/

/-- The feature has reached the exit and waits there, not OVERDUE (R77). -/
def Feature.isHeld (f : Feature) : Bool := f.reached && !f.overdue

/-- A field of the PANEL is pending (R77). -/
def Feature.hasPending (f : Feature) : Bool :=
  match f.body with
  | .panel p => p.nominal.isNone || decide (p.outLen = .pending) || decide (p.outLen = .asNominal) || decide (p.dose = .pending)
  | .splice _ _ => false

def State.anyOverdue (s : State) : Bool := s.map.features.any fun f => f.overdue

/-- The HANDOFF a feature leaves as (R79): the output length at a blade station, else the nominal length. -/
def State.handoffOf (s : State) (f : Feature) : Payload :=
  match f.body with
  | .panel p =>
    .handoffPanel (BitVec.ofNat 32 p.number) (BitVec.ofNat 16 p.pattern)
      (BitVec.ofNat 32 (if s.cfg.blade then (p.outLen.get?).getD 0 else p.nominal.getD 0)) (BitVec.ofNat 8 (causeCode p.cause))
  | .splice n _ => .handoffSplice (BitVec.ofNat 32 n)

/-- The reject gate after a feature's exit at the last station (R82). -/
def State.gateAfter (s : State) (gate : Bool) (f : Feature) : Bool :=
  if s.cfg.rejectGate then
    match f.body with
    | .panel p => p.cause.isSome
    | .splice _ _ => gate
  else gate

/-- The first held feature takes its exit (R79, R80, R82). -/
def State.exitHeld (s : State) (f : Feature) : State :=
  if s.isLast then
    { s with map := { features := s.map.features.eraseP Feature.isHeld, gateOpen := s.gateAfter s.map.gateOpen f } }
  else if s.anyOverdue || !s.handoffRoom then
    State.latch
      { s with map := { s.map with features := modifyFirst Feature.isHeld (fun g => { g with overdue := true }) s.map.features } }
      .handoffBacklog
  else
    State.pushHandoff { s with map := { s.map with features := s.map.features.eraseP Feature.isHeld } } (s.handoffOf f)

/-- The held features take their exits in list order, up to one with a pending field (R77, R79). -/
def State.takeHeld : Nat → State → State
  | 0, s => s
  | n + 1, s =>
    match s.map.features.find? Feature.isHeld with
    | some f => if f.hasPending then s else State.takeHeld n (s.exitHeld f)
    | none => s

/-- All the exits that can be taken now. -/
def State.takeExits (s : State) : State := State.takeHeld s.map.features.length s

/-- A feature at the exit that has not been taken yet (R79). -/
def State.exitDue (s : State) (f : Feature) : Bool := !f.reached && reaches s.tracker.position f.entry s.cfg.lSpan

/-- A place freed in the handoff FIFO takes the first OVERDUE feature (R80). -/
def State.drainOverdue (s : State) : State :=
  match s.map.features.find? fun f => f.overdue with
  | some f =>
    if s.handoffRoom then
      State.pushHandoff { s with map := { s.map with features := s.map.features.eraseP fun g => g.overdue } } (s.handoffOf f)
    else s
  | none => s

/-- What follows when the station becomes the last, or ceases to be (R81, R82). -/
def State.relast (wasLast : Bool) (s : State) : State :=
  if s.isLast && !wasLast then
    { s with
      map :=
        { features := s.map.features.filter fun f => !f.overdue
          gateOpen := (s.map.features.filter fun f => f.overdue).foldl s.gateAfter s.map.gateOpen } }
  else if !s.isLast && wasLast then { s with map := { s.map with gateOpen := false } }
  else s

/-! ### The origin's splice (R92, R93) -/

/-- A plan-drawn panel's count is given back (R93); one that was discarded gives nothing back (R89). -/
def PlanQueue.giveBack (q : PlanQueue) (c : CreatedPanel) : PlanQueue :=
  if c.planDrawn && c.inserted then
    match q.entries with
    | e :: rest =>
      if e.pattern = c.pattern ∧ e.count < 65535 then { q with entries := { e with count := e.count + 1 } :: rest }
      else if q.entries.length < 16 then { q with entries := { pattern := c.pattern, count := 1 } :: q.entries }
      else q
    | [] => { q with entries := [{ pattern := c.pattern, count := 1 }] }
  else q

/-- A splice reaches the origin's entry: the last created panel is rejected SPLICED, and its count is given back where the cause is newly
recorded or a notice is offered and the panel had carried no cause (R92, R93, log 19). For a last created panel that was discarded and is
not in the list the notice is offered, as for one that has left (log 28), and no count is given back (R89). -/
def State.spliceAtEntry (s : State) : State :=
  match s.plan.lastCreated with
  | none => s
  | some c =>
    match s.panel? c.number with
    | some p =>
      if p.cause.isNone then State.setCause { s with plan := s.plan.giveBack c } c.number .spliced else s
    | none =>
      State.noticeOf { s with plan := if s.isLast = false ∧ c.cause = none then s.plan.giveBack c else s.plan } c.number .spliced

/-- The splice of the list whose travel has newly reached 0 (R92). -/
def State.entryDue (s : State) (f : Feature) : Bool :=
  match f.body with
  | .splice _ atEntry => !atEntry && reaches s.tracker.position f.entry 0
  | .panel _ => false

def markAtEntry (f : Feature) : Feature :=
  match f.body with
  | .splice n _ => { f with body := .splice n true }
  | .panel _ => f

/-- The first splice due at the entry reaches it; nothing when none is due (R92). -/
def State.takeEntry (s : State) : State :=
  if s.map.features.any s.entryDue then
    State.spliceAtEntry { s with map := { s.map with features := modifyFirst s.entryDue markAtEntry s.map.features } }
  else s

end Sys2Proof.Machine
end

