-- ==== Sys2Proof/Machine/DoseOps.lean ====
section
/-! DEFINITION. The Dose Accountant's segments, credits and judgements (R170 to R177). -/

namespace Sys2Proof.Machine

/-- The segment's tail has reached the exit (R176). -/
def State.segmentOut (s : State) (g : Segment) : Bool := reaches s.tracker.position g.close s.cfg.lSpan

/-- The segment waits for its required dose: not exempt, and the dose pending (R176). -/
def Segment.waits (g : Segment) : Bool := !g.splice && !g.rejected && g.required.isNone

/-- The segment is underdosed (R176). -/
def Segment.underdosed (g : Segment) : Bool :=
  !g.splice && !g.rejected &&
    match g.required with
    | some r => decide (g.dose < r)
    | none => false

/-- The head segment is judged and removed (R176, R177). -/
def State.judge (s : State) (g : Segment) : State :=
  let t := { s with dose := { s.dose with queue := s.dose.queue.tail } }
  if g.underdosed && decide (g.panel ≠ s.dose.lastRejected) then
    State.condemn { t with dose := { t.dose with lastRejected := g.panel } } g.panel .underdosed
  else t

/-- The head segment at the exit, when it can be judged. -/
def State.segmentDue (s : State) : Option Segment :=
  match s.dose.queue with
  | g :: _ => if s.segmentOut g && !g.waits then some g else none
  | [] => none

/-- The segments at the exit are judged in queue order, up to one that waits (R171, R176). -/
def State.judgeAll : Nat → State → State
  | 0, s => s
  | n + 1, s =>
    match s.segmentDue with
    | some g => State.judgeAll n (s.judge g)
    | none => s

/-- A SPLICE of the list lies after `close` - SEG_LEN and at or before `close` (R172). -/
def State.spliceIn (s : State) (close : Pos) : Bool :=
  s.map.features.any fun f =>
    match f.body with
    | .splice _ _ => atOrBefore f.entry close && !atOrBefore f.entry (close - BitVec.ofNat 32 s.cfg.segLen)
    | .panel _ => false

/-- A PANEL's required dose as a segment takes it; pending stays pending (R172). -/
def Fill.asRequired : Fill → Option Nat
  | .value n => some n
  | .absent => some 0
  | .pending | .asNominal => none

/-- A new segment, charged from the list as it stands (R172). -/
def State.newSegment (s : State) (close : Pos) : Segment :=
  match s.panelAt close with
  | some p =>
    { close := close, panel := p.number, required := p.dose.asRequired, splice := s.spliceIn close, rejected := p.cause.isSome, dose := 0 }
  | none => { close := close, panel := 0, required := some 0, splice := s.spliceIn close, rejected := false, dose := 0 }

/-- The segment's midpoint lies in an in-band zone (R170, R174). -/
def State.inSteam (s : State) (g : Segment) : Bool :=
  let d := travel s.tracker.position g.close + ((s.cfg.segLen / 2 : Nat) : Int)
  s.steam.zones.any fun z => z.inBand && decide ((z.cfg.start : Int) ≤ d) && decide (d < (z.cfg.stop : Int))

/-- The credit of one dose tick (R174). -/
def State.credit (s : State) (g : Segment) : Segment :=
  if s.inSteam g then { g with dose := if 65530 ≤ g.dose then 65535 else g.dose + 10 } else g

end Sys2Proof.Machine
end

