-- ==== Sys2Proof/Machine/Configuration.lean ====
section
/-! DEFINITION. The configuration block: its fields, its three stages of tests and its consistency rules (R22 to R25), and the
configuration taken into force (R27). -/

namespace Sys2Proof.Machine

/-- Word `i` of what was read; a memory that does not answer reads as all ones (R22). -/
def blockWord (words : List Word16) (i : Nat) : Nat := (words.getD i 0xFFFF).toNat

/-- A field of two words, the more significant first (R23). -/
def blockPair (words : List Word16) (i : Nat) : Nat := blockWord words i * 65536 + blockWord words (i + 1)

/-- The first stage: signature 41B6h and length 69 (R24). -/
def headGood (words : List Word16) : Bool := decide (blockWord words 0 = 0x41B6) && decide (blockWord words 1 = 69)

/-- The second stage: the sum of all 69 words is zero modulo 65,536 (R24). -/
def sumGood (words : List Word16) : Bool := decide (((List.range 69).map (blockWord words)).sum % 65536 = 0)

/-- A value lies in a range, both ends included. -/
def within (a b v : Nat) : Bool := decide (a ≤ v) && decide (v ≤ b)

/-- Zone record `z`, ten words from word 28 + 10 z (R23). -/
def zoneRecord (words : List Word16) (z : Nat) : ZoneConfig :=
  { start := blockPair words (28 + 10 * z)
    stop := blockPair words (30 + 10 * z)
    setpoint := blockWord words (32 + 10 * z)
    setback := blockWord words (33 + 10 * z)
    band := blockWord words (34 + 10 * z)
    kp := blockWord words (35 + 10 * z) / 256
    ki := blockWord words (35 + 10 * z) % 256
    period := blockWord words (36 + 10 * z)
    activeLow := decide (blockWord words (37 + 10 * z) = 1) }

/-- The zone count: bits 10 to 8 of word 3 (R23). -/
def zoneCount (words : List Word16) : Nat := blockWord words 3 / 256 % 8

/-- The fields of the block (R23), with the records of the fitted zones. -/
def blockFields (words : List Word16) : StationConfig :=
  { roster := words.getD 2 0xFFFF
    origin := (blockWord words 3).testBit 0
    feedDrive := (blockWord words 3).testBit 1
    markSensor := (blockWord words 3).testBit 2
    blade := (blockWord words 3).testBit 3
    unwind := (blockWord words 3).testBit 4
    rejectGate := (blockWord words 3).testBit 5
    encTicks := blockWord words 4
    feedTicksPerStep := blockWord words 5
    newRollTicksPerStep := blockWord words 6
    maxSpeed := blockPair words 7
    acc := blockWord words 9
    dec := blockWord words 10
    decFast := blockWord words 11
    lSpan := blockPair words 12
    bDist := blockPair words 14
    claimWindow := blockWord words 16
    tStroke := blockWord words 17
    spliceClear := blockWord words 18
    segLen := blockWord words 19
    doseDefault := blockWord words 20
    spliceAt := blockPair words 21
    spliceSpeed := blockPair words 23
    pDist := blockPair words 25
    protectBoundary := blockWord words 27
    zones := (List.range (zoneCount words)).map (zoneRecord words) }

/-- The ranges of a fitted zone record (R23, R24). -/
def zoneRangeGood (lSpan : Nat) (words : List Word16) (z : Nat) : Bool :=
  let r := zoneRecord words z
  decide (r.start + 1 ≤ lSpan) && within (r.start + 1) lSpan r.stop && within 0 2500 r.setpoint && within 0 r.setpoint r.setback &&
    within 0 200 r.band && within 100 5000 r.period && decide (blockWord words (37 + 10 * z) ≤ 1)

/-- The third stage: every field in its range (R23, R24). Bits 6, 7 and 11 to 15 of word 3 and bit 0 of the roster are zero; the fields of
unfitted zone records are not tested. -/
def rangesGood (words : List Word16) : Bool :=
  let c := blockFields words
  decide (blockWord words 2 % 2 = 0) && decide (blockWord words 3 / 64 % 4 = 0) && decide (blockWord words 3 / 2048 = 0) &&
    decide (zoneCount words ≤ 4) && within 1 16 c.encTicks && within 1 64 c.feedTicksPerStep && within 1 64 c.newRollTicksPerStep &&
    within 1000 200000 c.maxSpeed && within 1 10000 c.acc && within 1 10000 c.dec && within 1 10000 c.decFast &&
    within 1000 2000000 c.lSpan && within 0 c.lSpan c.bDist && within 100 5000 c.claimWindow && within 4 50 c.tStroke &&
    within 0 60000 c.spliceClear && within 500 10000 c.segLen && within 0 60000 c.doseDefault &&
    within 1000 100000000 c.spliceAt && within 1000 c.maxSpeed c.spliceSpeed && within 0 2000000 c.pDist &&
    within 0 4095 c.protectBoundary && (List.range (zoneCount words)).all (zoneRangeGood c.lSpan words)

/-- Fitted zones lie in order and do not overlap (R25). -/
def zonesInOrder : List ZoneConfig → Bool
  | a :: b :: rest => decide (a.stop ≤ b.start) && zonesInOrder (b :: rest)
  | [_] => true
  | [] => true

/-- The consistency rules (R25). -/
def consistent (index : BitVec 4) (c : StationConfig) : Bool :=
  inSet c.roster index && (!c.blade || c.zones.isEmpty) && (!c.unwind || c.origin) && (!c.origin || c.markSensor) &&
    (c.zones.isEmpty || decide (c.lSpan ≤ 64 * c.segLen)) && decide (c.bDist ≤ c.lSpan) && (!c.blade || decide (c.bDist = c.lSpan)) &&
    zonesInOrder c.zones

/-- The configuration a block gives a station of this index, when it is good (R24, R25); none latches CONFIG_BAD. -/
def readBlock (index : BitVec 4) (words : List Word16) : Option StationConfig :=
  if headGood words && sumGood words && rangesGood words && consistent index (blockFields words) then some (blockFields words) else none

/-- The working record of a zone when the block is found good (R154, R163, R169). -/
def freshZone (z : ZoneConfig) : Zone :=
  { cfg := z, faulted := false, bad := 0, good := 0, temperature := none, setpointInUse := z.setback, integrator := 0
    pendingDuty := none, duty := 0, inBand := false, periodTimer := some (z.period * 1000), active := false }

/-- The Peer Table when the block is found good: members from the roster, the own entry FRESH (R31). -/
def rosterPeers (index : BitVec 4) (roster : BitVec 16) (peers : Vector Peer 16) : Vector Peer 16 :=
  Vector.ofFn fun i =>
    { peers[i.val] with
      member := roster.getLsbD i.val
      state := if i.val = index.toNat then .fresh else peers[i.val].state }

/-- The block is found good: the configuration is in force, the timers start, the Peer Table takes its members, and the store's scan
begins (R27, R31, R41, R154 to R156, R163, R170, R171). -/
def State.configGood (s : State) (c : StationConfig) : State :=
  { s with
    cfg := c
    boot := { s.boot with phase := .scan, cfgSelect := false, cfgSent := [], scanReading := true, scanMarks := [] }
    link := { s.link with beaconTimer := some 5000 }
    line := { s.line with peers := rosterPeers s.boot.index c.roster s.line.peers, rampTimer := some 1000 }
    steam :=
      { sampleTimer := if c.zones.isEmpty then none else some 100000
        converting := []
        zones := c.zones.map freshZone }
    dose :=
      if c.zones.isEmpty then s.dose
      else { s.dose with nextBoundary := ahead s.tracker.position c.segLen, timer := some 10000 } }

/-- CONFIG_BAD is latched: the line state becomes HELD and start-up goes no further (R21, R26, R37). -/
def State.configBad (s : State) : State :=
  let t := s.latch .configBad
  State.enterLine
    { t with
      boot := { t.boot with phase := .stopped, cfgSelect := false, cfgSent := [] }
      line := { t.line with haltOrigin := t.ownIndex } } .held

end Sys2Proof.Machine
end

