-- ==== Sys2Proof/Machine/Reports.lean ====
section
/-! DEFINITION. The beacon (R14, R167, R201) and the report pages (R205, R206). -/

namespace Sys2Proof.Machine

/-- The below-band zone set (R167): in RUN and STOPPING each fitted zone that is not in band, else empty. -/
def State.belowBand (s : State) : Byte :=
  match s.line.state with
  | .run | .stopping =>
    s.steam.zones.zipIdx.foldl (fun v zi => if zi.1.inBand then v else v ||| BitVec.twoPow 8 zi.2) 0
  | .starting | .standby | .halting | .held => 0

/-- The q_out a beacon carries: as it stands, but the reset value during STARTING and while CONFIG_BAD is latched (R26, R27, R47). -/
def State.beaconQOut (s : State) : Nat :=
  match s.line.state with
  | .starting => 65536
  | .standby | .run | .stopping | .halting | .held => if s.events.has .configBad then 65536 else s.qOut

/-- The BEACON built from the values as they stand (R14). -/
def State.beaconPayload (s : State) : Payload :=
  .beacon (BitVec.ofNat 8 s.line.state.code) (BitVec.ofNat 24 s.ownCeiling) (BitVec.ofNat 24 s.line.vCmd) (BitVec.ofNat 24 s.beaconQOut)
    (BitVec.ofNat 8 s.events.leadCode) (BitVec.ofNat 8 s.events.count) s.events.refusedKind s.events.refusalCause s.belowBand

/-- Page 0 (R206). -/
def State.page0 (s : State) : List Byte :=
  bigEndian 1 s.line.state.code ++ bigEndian 3 s.line.vCmd ++ bigEndian 3 s.target ++ bigEndian 3 s.line.qIn ++ bigEndian 3 s.qOut ++
    bigEndian 3 s.tracker.stretch ++ [s.line.haltOrigin] ++ bigEndian 1 s.events.resetCause.code ++ bigEndian 3 s.events.latched.toNat

/-- A zone's part of page 1 (R168, R206). -/
def zoneBytes (z : Zone) : List Byte :=
  bigEndian 1 (boolCode z.faulted) ++ bigEndian 2 (z.temperature.getD 0) ++ bigEndian 2 z.setpointInUse ++ bigEndian 2 z.duty ++
    bigEndianSigned24 z.integrator ++ bigEndian 1 (boolCode z.inBand)

/-- Page 1 (R168, R206). -/
def State.page1 (s : State) : List Byte := bigEndian 1 s.steam.zones.length ++ s.steam.zones.flatMap zoneBytes

/-- A slot's part of pages 2 to 9 (R97, R206). -/
def slotBytes (r : SlotRecord) : List Byte :=
  bigEndian 2 (r.id.getD 0) ++ bigEndian 1 r.state.code ++ bigEndian 4 (r.version.getD 0)

/-- Pages 2 to 9: four slots to a page (R97, R206). -/
def State.slotPage (s : State) (page : Nat) : List Byte :=
  (allSlots.filter fun i => decide (i.val / 4 + 2 = page)).flatMap fun i => slotBytes (s.store.record i)

/-- A feature's part of page 10 (R95, R206). -/
def featureBytes (f : Feature) : List Byte :=
  match f.body with
  | .panel p =>
    bigEndian 1 1 ++ bigEndian 4 p.number ++ bigEndian 4 f.entry.toNat ++ bigEndian 1 (causeCode p.cause) ++ bigEndian 1 (boolCode f.overdue)
  | .splice n _ => bigEndian 1 2 ++ bigEndian 4 n ++ bigEndian 4 f.entry.toNat ++ bigEndian 1 0 ++ bigEndian 1 (boolCode f.overdue)

/-- Page 10 (R95, R206). -/
def State.page10 (s : State) : List Byte :=
  bigEndian 1 s.map.features.length ++ (s.map.features.take 3).flatMap featureBytes

/-- A roll's part of page 11 (R199, R206). -/
def rollBytes (r : Roll) : List Byte := bigEndian 1 r.state.code ++ bigEndian 2 (r.id.getD 0) ++ bigEndian 4 (r.remaining.getD 0)

/-- Page 11 (R199, R206). -/
def State.page11 (s : State) : List Byte :=
  rollBytes s.splice.rollA ++ rollBytes s.splice.rollB ++ bigEndian 1 s.splice.state.code ++ bigEndian 4 s.splice.counter ++
    bigEndian 3 s.splice.vNew ++ bigEndian 1 s.plan.entries.length ++
    (match s.plan.entries with
     | e :: _ => bigEndian 2 e.pattern ++ bigEndian 2 e.count
     | [] => bigEndian 2 0 ++ bigEndian 2 0) ++ bigEndian 4 s.plan.counter

/-- A page's content (R206). -/
def State.page (s : State) (page : Nat) : List Byte :=
  match page with
  | 0 => s.page0
  | 1 => s.page1
  | 10 => s.page10
  | 11 => s.page11
  | n => s.slotPage n

/-- Content cut in order into parts of 12 bytes, the last holding what remains (R205). -/
def cutParts : Nat → List Byte → List (List Byte)
  | 0, _ => []
  | n + 1, bytes => if bytes.length ≤ 12 then [bytes] else bytes.take 12 :: cutParts n (bytes.drop 12)

/-- The REPORT frames of a page, with an empty target set and parts numbered from 0 (R8, R205). No page needs more than 4 parts
(R206). -/
def State.reportParts (s : State) (page : Nat) : List Payload :=
  (cutParts 4 (s.page page)).zipIdx.map fun (content, k) => .report 0 (BitVec.ofNat 8 page) (BitVec.ofNat 8 k) content

end Sys2Proof.Machine
end

