-- ==== Sys2Proof/Machine/LineLink.lean ====
section
/-! DEFINITION. The meanings of the Line Link's own commands (R2 to R6, R13 to R16), and how a received frame is checked and routed (R9 to
R12, R30). -/

namespace Sys2Proof.Machine

/-! ### Contention (R2, R3) -/

/-- END_OF_GAP: a contention period begins; a frame not complete by then is discarded (R2, R6). -/
def execEndOfGap (s : State) : Host.Outcome State Fault Refusal :=
  .next
    (if s.awake then
      match s.link.line with
      | .waitGap | .receiving => { s with link := { s.link with line := .contention 0 } }
      | .contention _ | .sending _ _ => s
    else s)

/-- CONTENTION_PERIOD_TIMEOUT: the period ends without a frame and a new one begins at once (R2). -/
def execContentionPeriodTimeout (s : State) : Host.Outcome State Fault Refusal :=
  .next
    (match s.link.line with
    | .contention _ => { s with link := { s.link with line := .contention 0 } }
    | .waitGap | .receiving | .sending _ _ => s)

/-- FIRST_ACTIVITY: another node's dominant bit ends the period and begins the reception of a frame (R2, R6). -/
def execFirstActivity (s : State) : Host.Outcome State Fault Refusal :=
  .next
    (match s.link.line with
    | .contention _ => { s with link := { s.link with line := .receiving } }
    | .waitGap | .receiving | .sending _ _ => s)

/-- RECEIVE_ABORT: the part-frame is discarded and the station waits for the next gap (R6). -/
def execReceiveAbort (s : State) : Host.Outcome State Fault Refusal :=
  .next
    (match s.link.line with
    | .receiving => { s with link := { s.link with line := .waitGap } }
    | .waitGap | .contention _ | .sending _ _ => s)

/-- The ready frame of a class (R3): a waiting one of a holder, or the head of a FIFO. -/
def Link.readyOf (l : Link) (cls : Nat) : Option (Place × TxFrame) :=
  match cls with
  | 0 => l.haltWaiting.map fun f => (.haltHolder, f)
  | 1 => l.beaconWaiting.map fun f => (.beaconHolder, f)
  | 2 => l.handoffFifo.head?.map fun f => (.handoffFifo, f)
  | 3 => l.generalFifo.head?.map fun f => (.generalFifo, f)
  | _ => none

/-- A frame starts: a holder's waiting frame moves to the line; a FIFO's head stays at the head (R13 to R16). -/
def Link.start (l : Link) (p : Place) (f : TxFrame) : Link :=
  let t := { l with line := .sending p f.id }
  match p with
  | .haltHolder => { t with haltWaiting := none, haltOnLine := some f }
  | .beaconHolder => { t with beaconWaiting := none, beaconOnLine := some f }
  | .handoffFifo | .generalFifo => t

/-- SLOT_OPENING: slot c × 16 + i opens; the ready frame of class c starts when i is the station's index (R2, R3). Slots open in order
(log 16). -/
def execSlotOpening (slot : Nat) (s : State) : Host.Outcome State Fault Refusal :=
  .next
    (match s.link.line with
    | .contention next =>
      if next ≤ slot ∧ slot < 64 then
        match (if slot % 16 = s.boot.index.toNat ∧ s.boot.index ≠ 0 then s.link.readyOf (slot / 16) else none) with
        | some (p, f) => { s with link := s.link.start p f }
        | none => { s with link := { s.link with line := .contention (slot + 1) } }
      else s
    | .waitGap | .receiving | .sending _ _ => s)

/-! ### Readback (R4, R5) -/

/-- The place releases a frame that was sent (R13 to R16). -/
def Link.release (l : Link) (p : Place) : Link :=
  match p with
  | .haltHolder => { l with haltOnLine := none }
  | .beaconHolder => { l with beaconOnLine := none }
  | .handoffFifo => { l with handoffFifo := l.handoffFifo.tail }
  | .generalFifo => { l with generalFifo := l.generalFifo.tail }

/-- An aborted frame of a holder returns to waiting when none waits there, and is discarded when a newer one does; a FIFO's stays at the
head (R13 to R16). -/
def Link.retry (l : Link) (p : Place) : Link :=
  match p with
  | .haltHolder =>
    match l.haltWaiting with
    | some _ => { l with haltOnLine := none }
    | none => { l with haltWaiting := l.haltOnLine, haltOnLine := none }
  | .beaconHolder =>
    match l.beaconWaiting with
    | some _ => { l with beaconOnLine := none }
    | none => { l with beaconWaiting := l.beaconOnLine, beaconOnLine := none }
  | .handoffFifo | .generalFifo => l

/-- The count after an abort of a frame: one more for the frame that last raised it, else 1 (R5). -/
def Link.countMismatch (l : Link) (id : Nat) : Nat := if l.mismatchFrame = some id then l.mismatches + 1 else 1

/-- FRAME_SENT: the frame leaves its place, the mismatch count becomes 0, and a place freed in the handoff FIFO takes the first OVERDUE
feature (R4, R5, R80). -/
def execFrameSent (s : State) : Host.Outcome State Fault Refusal :=
  .next
    (match s.link.line with
    | .sending p _ =>
      let t := { s with link := { s.link.release p with line := .waitGap, mismatches := 0 } }
      (match p with
       | .handoffFifo => t.drainOverdue
       | .haltHolder | .beaconHolder | .generalFifo => t)
    | .waitGap | .contention _ | .receiving => s)

/-- READBACK_MISMATCH: the frame is aborted, the station goes on as a receiver, and the third consecutive mismatch latches LINK_ERROR
(R4, R5). -/
def execReadbackMismatch (s : State) : Host.Outcome State Fault Refusal :=
  .next
    (match s.link.line with
    | .sending p id =>
      let n := s.link.countMismatch id
      let t := { s with link := { s.link.retry p with line := .receiving, mismatches := if 3 ≤ n then 0 else n, mismatchFrame := some id } }
      if 3 ≤ n then t.flag .linkError else t
    | .waitGap | .contention _ | .receiving => s)

/-- BEACON_TIMER_EXPIRY: a fresh BEACON replaces any waiting one (R14); none is built while DUPLICATE_INDEX is latched (R11). -/
def execBeaconTimerExpiry (s : State) : Host.Outcome State Fault Refusal :=
  .next
    (if s.link.beaconTimer ≠ none ∧ s.events.has .duplicateIndex = false then
      { s with
        link :=
          { s.link with
            beaconWaiting := some { id := s.link.serial, payload := s.beaconPayload }
            serial := s.link.serial + 1 } }
    else s)

/-! ### Reception and routing (R6, R9 to R12, R30) -/

/-- The kinds a station processes in a start-up phase (R30). -/
def processes (phase : StartPhase) (k : FrameKind) : Bool :=
  match phase with
  | .done => true
  | .listen => decide (k = .beacon)
  | .stopped => decide (k = .halt) || decide (k = .restart)
  | .off | .inReset | .read | .scan => false

/-- The frame is addressed to the station: a class-3 frame by its target set, any other always (R12). -/
def State.addressed (s : State) (p : Payload) : Bool :=
  match p.targets with
  | some t => inSet t s.boot.index
  | none => true

/-- The frame reaches its owning block: another node's index, addressed, processed in this phase, at a station with an index of
its own (R10, R12, R21, R30). -/
def State.routes (s : State) (f : RxFrame) : Bool :=
  decide (s.boot.index ≠ 0) && decide (f.sender ≠ s.boot.index) && s.addressed f.payload && processes s.boot.phase f.payload.kind

/-- A frame ends that is not the station's own (R6, R9, R10, R12): it is checked; another node's frame with the station's own index latches
DUPLICATE_INDEX; a frame that is routed goes to its owner, whose part in it `owner` gives. Nothing is taken while no frame is being
received (R6). A frame `owner` gives no part in is not the command's (log 12). -/
def State.receive (s : State) (bytes : List Byte) (owner : RxFrame → Option (State → State)) : State :=
  match s.link.line with
  | .receiving =>
    let t := { s with link := { s.link with line := .waitGap } }
    match acceptFrame bytes with
    | none => t
    | some f =>
      match owner f with
      | none => t
      | some act =>
        if s.boot.index ≠ 0 ∧ f.sender = s.boot.index then t.latchDuplicate
        else if s.routes f then act t
        else t
  | .waitGap | .contention _ | .sending _ _ => s

end Sys2Proof.Machine
end

