-- ==== Sys2Proof/Machine/LineCommands.lean ====
section
/-! DEFINITION. The meanings of the frames Line Control, the Event Latch and start-up own, and of Line Control's timers and the step
generators (R20, R31 to R52, R202, R205). -/

namespace Sys2Proof.Machine

/-! ### HALT, RUN, STOP, CLEAR (R35 to R40) -/

/-- HALT (R38). -/
def execHalt (bytes : List Byte) (s : State) : Host.Outcome State Fault Refusal :=
  .next
    (s.receive bytes fun f =>
      match f.payload with
      | .halt _ origin => some fun t => t.haltLine origin
      | _ => none)

/-- A RUN at its owner (R35). -/
def State.takeRun (s : State) (setpoint : Nat) : State :=
  match s.line.state with
  | .standby =>
    if s.events.anyHalt = false ∧ s.line.allHeard = true then
      State.enterLine { s with line := { s.line with setpoint := clamp 0 s.cfg.maxSpeed setpoint } } .run
    else s.refuse .run .notReady
  | .starting | .run | .stopping | .halting | .held => s.refuse .run .badState

/-- RUN (R35). -/
def execRun (bytes : List Byte) (s : State) : Host.Outcome State Fault Refusal :=
  .next
    (s.receive bytes fun f =>
      match f.payload with
      | .run _ v => some fun t => t.takeRun v.toNat
      | _ => none)

/-- A STOP at its owner (R36). -/
def State.takeStop (s : State) : State :=
  match s.line.state with
  | .run => (s.enterLine .stopping).passOn
  | .starting | .standby | .stopping | .halting | .held => s

/-- STOP (R36). -/
def execStop (bytes : List Byte) (s : State) : Host.Outcome State Fault Refusal :=
  .next
    (s.receive bytes fun f =>
      match f.payload with
      | .stop _ => some fun t => t.takeStop
      | _ => none)

/-- A roll record is ACTIVE with a remaining above 0 (12_events_and_status.md, The Events). -/
def Splice.feeding (u : Splice) : Bool :=
  match u.sideIn .active with
  | some side => decide (0 < (u.roll side).remaining.getD 0)
  | none => false

/-- The condition under which a CLEAR clears an event (12_events_and_status.md, The Events). -/
def State.conditionGone (s : State) (e : Event) : Bool :=
  match e with
  | .configBad | .duplicateIndex => false
  | .peerLost => s.line.allHeard
  | .mapFull => decide (s.map.features.length < 32)
  | .handoffBacklog => !s.anyOverdue
  | .rollOut => s.splice.feeding
  | .zoneSensor => !s.steam.zones.any fun z => z.faulted
  | .trackLost | .driveFault | .strokeOverrun | .spliceFailed | .markMissed | .strayMark | .stretchClamp | .patternMissing
  | .lateReject | .loadFailed | .linkError => true

/-- The clearing of TRACK_LOST: the miss count and the reverse debt become 0 (R72), every PANEL of the list without a cause takes
TRACK_LOST (R87), of which the stretch reference is one (R72, log 35) and the last created panel may be one (R93). -/
def State.clearTrack (s : State) : State :=
  { s with
    tracker :=
      { s.tracker with
        misses := 0
        debt := 0
        ref := s.tracker.ref.map fun r => { r with rejected := true } }
    plan :=
      match s.plan.lastCreated with
      | some c => if (s.panel? c.number).isSome then s.planAfter c.number .trackLost else s.plan
      | none => s.plan
    map := { s.map with features := s.map.features.map fun f => f.mapPanel fun p => p.withCause .trackLost } }

/-- INHIBITED moves to ARMED at a CLEAR, with the test of R188 (R196). -/
def State.freeSplice (s : State) : State :=
  match s.splice.state with
  | .inhibited => State.tryMatching { s with splice := { s.splice with state := .armed } }
  | .idle | .armed | .matching | .pasting | .cutting => s

/-- A CLEAR at its owner (R40, R202). -/
def State.takeClear (s : State) : State :=
  let t := { s with events := s.events.clearWhere s.conditionGone }
  let t := if s.events.has .trackLost then t.clearTrack else t
  let t := if t.line.state = .held ∧ t.events.anyHalt = false then t.enterLine .standby else t
  t.freeSplice

/-- CLEAR (R40). -/
def execClear (bytes : List Byte) (s : State) : Host.Outcome State Fault Refusal :=
  .next
    (s.receive bytes fun f =>
      match f.payload with
      | .clear _ => some fun t => t.takeClear
      | _ => none)

/-! ### BEACON and RELEASE (R31 to R34) -/

/-- A BEACON at its owner: a member's entry becomes FRESH with the beacon's fields, and what depends on it follows (R32, R46, R81). -/
def State.takeBeacon (s : State) (sender : BitVec 4) (ceiling qOut : Nat) : State :=
  if (s.line.peer sender).member then
    let t :=
      { s with
        line :=
          s.line.setPeer sender
            { member := true, state := .fresh, ageTimer := some 20000, ceiling := some ceiling, qOut := some qOut } }
    State.afterSpeeds s (State.relast s.isLast t).retakeQIn
  else s

/-- BEACON (R32). -/
def execBeacon (bytes : List Byte) (s : State) : Host.Outcome State Fault Refusal :=
  .next
    (s.receive bytes fun f =>
      match f.payload with
      | .beacon _ c _ q _ _ _ _ _ => some fun t => t.takeBeacon f.sender c.toNat q.toNat
      | _ => none)

/-- A RELEASE at its owner (R34, R81). -/
def State.takeRelease (s : State) (released : Byte) : State :=
  let i : BitVec 4 := released.setWidth 4
  if released.toNat = 0 ∨ 15 < released.toNat ∨ (s.line.peer i).member = false then s.refuse .release .outOfRange
  else if i = s.boot.index then s.refuse .release .badState
  else
    match (s.line.peer i).state with
    | .fresh => s.refuse .release .badState
    | .absent | .stale | .released =>
      State.relast s.isLast { s with line := s.line.setPeer i { s.line.peer i with state := .released } }

/-- RELEASE (R34). -/
def execRelease (bytes : List Byte) (s : State) : Host.Outcome State Fault Refusal :=
  .next
    (s.receive bytes fun f =>
      match f.payload with
      | .release _ i => some fun t => t.takeRelease i
      | _ => none)

/-- PEER_AGE_TIMER_EXPIRY: a FRESH entry becomes STALE, with PEER_LOST in RUN and STOPPING, and q_in is re-taken (R33, R46). -/
def execPeerAgeTimerExpiry (index : BitVec 4) (s : State) : Host.Outcome State Fault Refusal :=
  .next
    (if (s.line.peer index).state = .fresh ∧ (s.line.peer index).ageTimer ≠ none then
      let t := { s with line := s.line.setPeer index { s.line.peer index with state := .stale, ageTimer := none } }
      let t :=
        match t.line.state with
        | .run | .stopping => t.latch .peerLost
        | .starting | .standby | .halting | .held => t
      State.afterSpeeds s t.retakeQIn
    else s)

/-! ### Reports, RESTART (R16, R20, R205) -/

/-- REPORT_REQ (R205). -/
def execReportReq (bytes : List Byte) (s : State) : Host.Outcome State Fault Refusal :=
  .next
    (s.receive bytes fun f =>
      match f.payload with
      | .reportReq _ page =>
        some fun t => if 11 < page.toNat then t.refuse .reportReq .outOfRange else t.offerReports (t.reportParts page.toNat)
      | _ => none)

/-- REPORT: no block owns it, and it is discarded at routing (R12). -/
def execReport (bytes : List Byte) (s : State) : Host.Outcome State Fault Refusal :=
  .next
    (s.receive bytes fun f =>
      match f.payload with
      | .report _ _ _ _ => some fun t => t
      | _ => none)

/-- A RESTART at its owner: taken in STANDBY and HELD unless the splice is in PASTING or CUTTING (R20). -/
def State.takeRestart (s : State) : State :=
  match s.line.state with
  | .standby | .held =>
    match s.splice.state with
    | .pasting | .cutting => s.refuse .restart .badState
    | .idle | .armed | .matching | .inhibited => s.startReset .restart .inReset
  | .starting | .run | .stopping | .halting => s.refuse .restart .badState

/-- RESTART (R20). -/
def execRestart (bytes : List Byte) (s : State) : Host.Outcome State Fault Refusal :=
  .next
    (s.receive bytes fun f =>
      match f.payload with
      | .restart _ => some fun t => t.takeRestart
      | _ => none)

/-! ### Ramp, drive supervision, step generators (R45, R50, R52) -/

/-- v_cmd after a ramp step (R45). -/
def State.ramped (s : State) : Nat :=
  if s.line.vCmd < s.target then min s.target (s.line.vCmd + s.cfg.acc)
  else if s.target < s.line.vCmd then
    max s.target (s.line.vCmd - match s.line.state with
      | .halting => s.cfg.decFast
      | .starting | .standby | .run | .stopping | .held => s.cfg.dec)
  else s.line.vCmd

/-- RAMP_TIMER_EXPIRY (R45, R39, R51). -/
def execRampTimerExpiry (s : State) : Host.Outcome State Fault Refusal :=
  .next
    (if s.line.rampTimer ≠ none then
      (State.afterSpeeds s { s with line := { s.line with vCmd := s.ramped } }).passOn
    else s)

/-- DRIVE_FAULT_TIMER_EXPIRY: DRIVE_FAULT is latched and the timer stays stopped (R52). -/
def execDriveFaultTimerExpiry (s : State) : Host.Outcome State Fault Refusal :=
  .next
    (if s.line.driveTimer ≠ none then State.latch { s with line := { s.line with driveTimer := none } } .driveFault else s)

/-- The end of a period: the pending divisor is taken into use (R50). -/
def Stepper.endPeriod (g : Stepper) : Stepper :=
  match g.inUse with
  | .idle => g
  | .value _ =>
    match g.waiting with
    | some d => { inUse := d, waiting := none }
    | none => g

/-- STEP_PERIOD_END (R50). -/
def execStepPeriodEnd (gen : StepGen) (s : State) : Host.Outcome State Fault Refusal :=
  .next
    (match gen with
    | .feed => { s with step0 := s.step0.endPeriod }
    | .newRoll => { s with step1 := s.step1.endPeriod })

end Sys2Proof.Machine
end

