-- ==== Sys2Proof/Machine/Tracking.lean ====
section
/-! DEFINITION. The meanings of the Web Tracker's commands: encoder edges, speed capture, marks, PANEL handoffs and their pairing
(R53 to R72, R89 to R91, R185). -/

namespace Sys2Proof.Machine

/-! ### Speed capture (R56 to R58) -/

/-- The interval of a captured count, at least 1 (R56). -/
def Capture.interval (c : Capture) (count : Nat) : Nat := max 1 (c.overflows * 65536 + count)

/-- The speed of an interval (R56). -/
def speedOf (encTicks interval : Nat) : Nat := encTicks * 1000000 / interval

/-- The capture after a forward edge: TIMING, its timer at 0 (R56). -/
def Capture.started : Capture := { timing := true, timer := 0, overflows := 0 }

/-- The measured speed after a forward edge: unchanged when the capture was STOPPED (R56). -/
def Capture.speedAtEdge (c : Capture) (encTicks count speed : Nat) : Nat :=
  if c.timing then speedOf encTicks (c.interval count) else speed

/-- The capture after an overflow of its timer while TIMING: STOPPED by the fourth (R57). -/
def Capture.overflow (c : Capture) : Capture :=
  if 3 ≤ c.overflows then Capture.reset else { c with timer := 0, overflows := c.overflows + 1 }

/-- The measured speed after an overflow: 0 when it stops the capture (R57). -/
def Capture.speedAtOverflow (c : Capture) (speed : Nat) : Nat := if 3 ≤ c.overflows then 0 else speed

/-! ### Web edges (R54, R55, R185) -/

/-- The ticks a forward edge advances the position, after paying the debt (R54). -/
def State.advanceOf (s : State) : Nat := s.cfg.encTicks - s.tracker.debt

/-- An ACTIVE or EXPIRING roll is counted down by an advance (R185). -/
def Roll.count (r : Roll) (n : Nat) : Roll :=
  match r.state with
  | .active | .expiring => { r with remaining := r.remaining.map fun m => m - n }
  | .empty | .loaded => r

/-- A forward edge on the web: the capture measures, the debt is paid, the position and the rolls advance (R54, R56, R185). -/
def State.forward (s : State) (count : Nat) : State :=
  { s with
    tracker :=
      { s.tracker with
        position := ahead s.tracker.position s.advanceOf
        debt := s.tracker.debt - s.cfg.encTicks
        web := Capture.started
        speed := s.tracker.web.speedAtEdge s.cfg.encTicks count s.tracker.speed }
    splice := { s.splice with rollA := s.splice.rollA.count s.advanceOf, rollB := s.splice.rollB.count s.advanceOf } }

/-- FORWARD_EDGE (R53, R54, R56). What the advance reaches follows as commands of its own (log 2). -/
def execForwardEdge (count : BitVec 16) (s : State) : Host.Outcome State Fault Refusal :=
  .next (if s.configured then State.afterSpeeds s (s.forward count.toNat) else s)

/-- A reverse edge on the web: the debt grows, saturating, and the capture stops (R55, R57). -/
def State.backward (s : State) : State :=
  { s with
    tracker :=
      { s.tracker with debt := min 1000000 (s.tracker.debt + s.cfg.encTicks), web := Capture.reset, speed := 0 } }

/-- REVERSE_EDGE: a debt left above 5,000 latches TRACK_LOST (R55, R57). -/
def execReverseEdge (s : State) : Host.Outcome State Fault Refusal :=
  .next
    (if s.configured then
      let t := State.afterSpeeds s s.backward
      if 5000 < t.tracker.debt then t.latch .trackLost else t
    else s)

/-- CAPTURE_TIMER_OVERFLOW, of the web encoder's capture or of the surface encoder's (R57, R58). -/
def execCaptureTimerOverflow (encoder : Encoder) (s : State) : Host.Outcome State Fault Refusal :=
  .next
    (match encoder with
    | .web =>
      if s.configured && s.tracker.web.timing then
        State.afterSpeeds s
          { s with
            tracker := { s.tracker with web := s.tracker.web.overflow, speed := s.tracker.web.speedAtOverflow s.tracker.speed } }
      else s
    | .surface =>
      if s.configured && s.cfg.unwind && s.tracker.surface.timing then
        State.afterSpeeds s
          { s with
            tracker :=
              { s.tracker with
                surface := s.tracker.surface.overflow
                surfaceSpeed := s.tracker.surface.speedAtOverflow s.tracker.surfaceSpeed } }
      else s)

/-- The surface capture after an edge (R58). -/
def State.surfaceEdge (s : State) (d : Direction) (count : Nat) : State :=
  match d with
  | .forward =>
    { s with
      tracker :=
        { s.tracker with
          surface := Capture.started
          surfaceSpeed := s.tracker.surface.speedAtEdge s.cfg.encTicks count s.tracker.surfaceSpeed } }
  | .reverse => { s with tracker := { s.tracker with surface := Capture.reset, surfaceSpeed := 0 } }

/-- SURFACE_ENCODER_EDGE: sampled where the unwind is fitted, and judged as a web edge is (R58, R53). -/
def execSurfaceEncoderEdge (before after : Quad) (count : BitVec 16) (s : State) : Host.Outcome State Fault Refusal :=
  .next
    (if s.configured && s.cfg.unwind then
      match judgeEdge before after with
      | some d => State.afterSpeeds s (s.surfaceEdge d count.toNat)
      | none => s
    else s)

/-! ### Marks (R59, R60, R62, R89 to R91) -/

/-- A mark is taken: sensor fitted, DONE, and the web has moved since the last one (R59). -/
def State.takesMark (s : State) : Bool :=
  s.ready && s.cfg.markSensor && decide (s.tracker.lastMark ≠ some s.tracker.position)

/-- The last mark interval at a mark of the origin (R60). -/
def Tracker.intervalAt (t : Tracker) : Option Nat :=
  match t.lastMark with
  | some q => some (t.position - q).toNat
  | none => t.lastInterval

/-- The counter after a panel (R91) or a splice (R197) takes its number: 0 is not used. -/
def nextNumber (n : Nat) : Nat := if n = 4294967295 then 1 else n + 1

/-- The pattern id the plan gives the next panel: 0 makes it blank (R89, R90). -/
def PlanQueue.drawnPattern (q : PlanQueue) : Nat :=
  match q.entries with
  | e :: _ => e.pattern
  | [] => 0

/-- The entries after the head is drawn from (R89, R90). -/
def PlanQueue.entriesAfter (q : PlanQueue) : List PlanEntry :=
  match q.entries with
  | e :: rest => if e.count ≤ 1 then rest else { e with count := e.count - 1 } :: rest
  | [] => []

/-- The origin's new PANEL: drawn from the plan with its nominal length to be looked up (R89), or blank (R90). -/
def State.createdPanel (s : State) : Panel :=
  if s.plan.drawnPattern = 0 then s.newPanel s.plan.counter 0 (some (s.tracker.lastInterval.getD s.cfg.lSpan)) (some .blank) false
  else s.newPanel s.plan.counter s.plan.drawnPattern none none true

/-- The Plan Queue after the creation of a panel that the Web Map inserts or discards (R89 to R91). -/
def PlanQueue.afterPanel (q : PlanQueue) (p : Panel) (inserted : Bool) : PlanQueue :=
  { entries := q.entriesAfter
    counter := nextNumber q.counter
    lastCreated := some { number := p.number, pattern := p.pattern, planDrawn := p.planDrawn, inserted := inserted, cause := p.cause } }

/-- A mark at the origin creates a panel (R60, R89, R90). -/
def State.originMark (s : State) : State :=
  let p := s.createdPanel
  let t := { s with plan := s.plan.afterPanel p (s.hasRoomFor (panelFeature p s.tracker.position)) }
  t.place p s.tracker.position true

/-- A mark elsewhere claims the oldest pending handoff, or waits (R62, R66). -/
def State.pairMark (s : State) : State :=
  match s.tracker.handoffs with
  | h :: rest => State.claim { s with tracker := { s.tracker with handoffs := rest } } h s.tracker.position
  | [] =>
    let t := if 4 ≤ s.tracker.marks.length then s.discardMark else s
    { t with tracker := { t.tracker with marks := t.tracker.marks ++ [s.tracker.position] } }

/-- MARK_SENSED (R59, R60, R62). -/
def execMarkSensed (s : State) : Host.Outcome State Fault Refusal :=
  .next
    (if s.takesMark then
      (if s.cfg.origin then
        State.originMark
          { s with tracker := { s.tracker with lastMark := some s.tracker.position, lastInterval := s.tracker.intervalAt } }
      else State.pairMark { s with tracker := { s.tracker with lastMark := some s.tracker.position } })
    else s)

/-- HANDOFF_WINDOW_EXPIRY: the oldest pending handoff's window has run out (R64). -/
def execHandoffWindowExpiry (s : State) : Host.Outcome State Fault Refusal :=
  .next
    (match s.tracker.handoffs with
    | h :: _ => if reaches s.tracker.position h.arrival s.cfg.claimWindow then s.expireHandoff else s
    | [] => s)

/-- MARK_WINDOW_EXPIRY: the oldest unclaimed mark's window has run out (R65). -/
def execMarkWindowExpiry (s : State) : Host.Outcome State Fault Refusal :=
  .next
    (match s.tracker.marks with
    | m :: _ => if reaches s.tracker.position m s.cfg.claimWindow then s.discardMark else s
    | [] => s)

/-! ### PANEL handoffs (R61, R63, R66) -/

/-- An accepted PANEL handoff is paired, or waits (R63, R66); without a mark sensor its PANEL is placed at once (R61). -/
def State.pairHandoff (s : State) (h : PendingHandoff) : State :=
  if s.cfg.markSensor then
    match s.tracker.marks with
    | m :: rest => State.claim { s with tracker := { s.tracker with marks := rest } } h m
    | [] =>
      let t := if 4 ≤ s.tracker.handoffs.length then s.expireHandoff else s
      { t with tracker := { t.tracker with handoffs := t.tracker.handoffs ++ [h] } }
  else s.offerFeature (panelFeature (s.newPanel h.number h.pattern (some h.nominal) h.cause false) h.arrival)

/-- A PANEL handoff at its owner: from the source, and of a number that is not pending already (R61). -/
def State.takeHandoff (s : State) (sender : BitVec 4) (h : PendingHandoff) : State :=
  if s.acceptsFrom sender && !(s.tracker.handoffs.any fun g => decide (g.number = h.number)) then s.pairHandoff h else s

/-- HANDOFF_PANEL (R61, R63). -/
def execHandoffPanel (bytes : List Byte) (s : State) : Host.Outcome State Fault Refusal :=
  .next
    (s.receive bytes fun f =>
      match f.payload with
      | .handoffPanel n p l c =>
        some fun t =>
          t.takeHandoff f.sender
            { number := n.toNat, pattern := p.toNat, nominal := l.toNat, cause := causeOfCode c, arrival := t.tracker.position }
      | _ => none)

end Sys2Proof.Machine
end

