-- ==== Sys2Proof/Machine/MapCommands.lean ====
section
/-! DEFINITION. The meanings of the Web Map's and the Plan Queue's commands: SPLICE and REJECT handoffs, PLAN, exits, the splice at the
origin's entry, and the Web Map's lookups (R77 to R93). -/

namespace Sys2Proof.Machine

/-! ### Frames (R83 to R86, R88) -/

/-- HANDOFF_SPLICE (R84). -/
def execHandoffSplice (bytes : List Byte) (s : State) : Host.Outcome State Fault Refusal :=
  .next
    (s.receive bytes fun f =>
      match f.payload with
      | .handoffSplice n =>
        some fun t => if t.acceptsFrom f.sender then t.offerFeature (spliceFeature n.toNat t.tracker.position) else t
      | _ => none)

/-- A cause recorded on a pending handoff that has none (R85). -/
def PendingHandoff.withCause (h : PendingHandoff) (c : RejectCause) : PendingHandoff :=
  match h.cause with
  | some _ => h
  | none => { h with cause := some c }

/-- An accepted REJECT handoff: on the PANEL of the list, else on the pending handoff, else sent on (R85). -/
def State.takeReject (s : State) (number : Nat) (code : Byte) : State :=
  match causeOfCode code with
  | none => s
  | some c =>
    if (s.panel? number).isSome then s.setCause number c
    else if s.tracker.handoffs.any fun h => decide (h.number = number) then
      { s with
        tracker :=
          { s.tracker with
            handoffs := modifyFirst (fun h => decide (h.number = number)) (fun h => h.withCause c) s.tracker.handoffs } }
    else s.rejectNotice number code

/-- HANDOFF_REJECT (R83, R85). -/
def execHandoffReject (bytes : List Byte) (s : State) : Host.Outcome State Fault Refusal :=
  .next
    (s.receive bytes fun f =>
      match f.payload with
      | .handoffReject n c => some fun t => if t.acceptsFrom f.sender then t.takeReject n.toNat c else t
      | _ => none)

/-- A PLAN at its owner (R88). -/
def State.takePlan (s : State) (pattern count : Nat) : State :=
  if s.cfg.origin = false then s.refuse .plan .notFitted
  else if 4095 < pattern ∨ count = 0 then s.refuse .plan .outOfRange
  else if 16 ≤ s.plan.entries.length then s.refuse .plan .planFull
  else { s with plan := { s.plan with entries := s.plan.entries ++ [{ pattern := pattern, count := count }] } }

/-- PLAN (R88). -/
def execPlan (bytes : List Byte) (s : State) : Host.Outcome State Fault Refusal :=
  .next
    (s.receive bytes fun f =>
      match f.payload with
      | .plan _ p c => some fun t => t.takePlan p.toNat c.toNat
      | _ => none)

/-! ### The exit and the entry (R79, R92) -/

/-- The feature is marked as having reached the exit (R77, R79). -/
def State.markReached (s : State) : State :=
  { s with map := { s.map with features := modifyFirst s.exitDue (fun f => { f with reached := true }) s.map.features } }

/-- A splice at the blade may end a panel's play, and so offer a notice beside its own HANDOFF (R150). -/
def State.endsPlay (s : State) : Bool :=
  s.cfg.blade &&
    match s.seq.state with
    | .leadIn | .folding | .tail => true
    | .idle | .runout => false

/-- The exit and the Sequencer's act on a splice that ends a panel's play, in either order (R150). -/
def State.spliceExit (noticeFirst : Bool) (s : State) (f : Feature) : State :=
  if noticeFirst then (s.atBlade f).takeExits else (s.takeExits).atBlade f

/-- A feature at the exit takes it, and at a blade station the Sequencer then acts on it (R79, R132, log 39); the order is free for a
splice that ends a panel's play (R150, log 11). -/
def State.featureExit (s : State) (f : Feature) : State :=
  match f.body with
  | .panel _ => (s.takeExits).atBlade f
  | .splice _ _ =>
    if s.endsPlay then State.spliceExit (Config.noticeFirst s.free) { s with free := s.free + 1 } f
    else (s.takeExits).atBlade f

/-- FEATURE_AT_EXIT: the first feature at the exit takes it (R79). -/
def execFeatureAtExit (s : State) : Host.Outcome State Fault Refusal :=
  .next
    (match s.map.features.find? s.exitDue with
    | some f => (s.markReached).featureExit f
    | none => s)

/-- SPLICE_REACHES_ENTRY (R92). -/
def execSpliceReachesEntry (s : State) : Host.Outcome State Fault Refusal := .next (if s.cfg.origin then s.takeEntry else s)

/-! ### The Web Map's lookups (R77, R89) -/

/-- What a lookup gives for the nominal length: the pattern's, else the last mark interval, else L_span (R89). -/
def State.nominalFrom (s : State) (found : Option Pattern) : Nat :=
  match found with
  | some p => p.nominal
  | none => s.tracker.lastInterval.getD s.cfg.lSpan

/-- What a lookup gives for the required dose: the pattern's, else DOSE_DEFAULT (R77). -/
def State.doseFrom (s : State) (found : Option Pattern) : Nat :=
  match found with
  | some p => p.dose
  | none => s.cfg.doseDefault

/-- An output length that waited for the nominal length takes it (R136). -/
def Fill.settle (f : Fill) (nominal : Nat) : Fill :=
  match f with
  | .asNominal => .value nominal
  | .absent => .absent
  | .pending => .pending
  | .value n => .value n

/-- The pending fields of a PANEL are filled (R77). -/
def Panel.fill (p : Panel) (nominal dose : Nat) : Panel :=
  { p with
    nominal := some (p.nominal.getD nominal)
    outLen := p.outLen.settle (p.nominal.getD nominal)
    dose := match p.dose with
      | .pending => .value dose
      | .absent => .absent
      | .asNominal => .asNominal
      | .value n => .value n }

/-- A context whose PANEL's nominal length was pending takes it, and a FLAT one its output length (R136). -/
def Context.settle (c : Context) (number nominal : Nat) : Context :=
  if c.panel = number ∧ c.nominal = none then
    { c with
      nominal := some nominal
      outLen := if c.delivered && c.pattern.isNone then some nominal else c.outLen }
  else c

/-- A segment charged to the panel whose required dose was pending takes it (R172). -/
def Segment.fill (g : Segment) (number dose : Nat) : Segment :=
  if g.panel = number ∧ g.required = none then { g with required := some dose } else g

/-- The stretch reference of the panel takes the nominal length it waited for (R60, log 10). -/
def StretchRef.settle (r : StretchRef) (number nominal : Nat) : StretchRef :=
  if r.number = number then { r with nominal := some (r.nominal.getD nominal) } else r

/-- What a lookup filled for a panel, wherever it was pending: its record, the stretch reference, the contexts and the segments charged to
it (R60, R77, R136, R172). -/
def State.fillPending (s : State) (number nominal dose : Nat) : State :=
  { s with
    map :=
      { s.map with
        features := modifyFirst (fun f => f.isPanel number) (fun f => f.mapPanel fun p => p.fill nominal dose) s.map.features }
    tracker := { s.tracker with ref := s.tracker.ref.map fun r => r.settle number nominal }
    seq :=
      { s.seq with
        current := s.seq.current.map fun c => c.settle number nominal
        next := s.seq.next.map fun c => c.settle number nominal }
    dose := { s.dose with queue := s.dose.queue.map fun g => g.fill number dose } }

/-- The exits and the judgements that waited are taken, in either order (R77, R176, R178). -/
def State.releaseBoth (judgeFirst : Bool) (s : State) : State :=
  if judgeFirst then (State.judgeAll s.dose.queue.length s).takeExits
  else State.judgeAll s.takeExits.dose.queue.length s.takeExits

/-- An exit and a judgement both wait to be taken. -/
def State.bothWait (s : State) : Bool := s.map.features.any Feature.isHeld && s.segmentDue.isSome

/-- A Web Map lookup is delivered for a panel: the fields are filled, then the exits and judgements that waited are taken (R77, R89,
R176), in an order that is free where there are both (R178, log 40). -/
def State.deliverToMap (s : State) (number : Nat) (found : Option Pattern) : State :=
  let t := s.fillPending number (s.nominalFrom found) (s.doseFrom found)
  let t := if found.isNone then t.flag .patternMissing else t
  if t.bothWait then State.releaseBoth (Config.judgeFirst t.free) { t with free := t.free + 1 } else t.releaseBoth false

/-- WEB_MAP_LOOKUP_COMPLETE: the port goes on, the pending fields are filled, and the exits and judgements that waited for them are taken
(R77, R108, R113, R176, logs 9 and 18). -/
def execWebMapLookupComplete (s : State) : Host.Outcome State Fault Refusal :=
  .next
    (match s.store.serving with
    | some v =>
      if v.lookup.requester = .webMap then
        State.deliverToMap { s with store := s.store.endService } v.lookup.panel v.found
      else s
    | none => s)

end Sys2Proof.Machine
end

