-- ==== Sys2Proof/Machine/StoreCommands.lean ====
section
/-! DEFINITION. The meanings of the Pattern Store's commands: the pattern frames, the ends of suspend and resume, the completions of NV
operations, and the Sequencer's lookups (R98 to R115, R134, R139). -/

namespace Sys2Proof.Machine

/-! ### Assembling (R99 to R101) -/

/-- The buffer a taken PAT_OPEN opens, its header clamped in the order of R100. -/
def openedBuffer (pattern nominal leadIn dose count : Nat) : Buffer :=
  { id := pattern
    nominal := clamp 20000 800000 nominal
    leadIn := clamp 0 (clamp 20000 800000 nominal) leadIn
    dose := clamp 0 60000 dose
    announced := count
    nextSeq := 0
    entries := [] }

/-- The buffer is discarded and CLOSED, and LOAD_FAILED is latched (R101). -/
def State.failLoad (s : State) : State := State.flag { s with store := { s.store with buffer := none } } .loadFailed

/-- A PAT_OPEN at its owner (R99). -/
def State.takePatOpen (s : State) (pattern nominal leadIn dose count : Nat) : State :=
  if pattern = 0 ∨ 4095 < pattern ∨ count = 0 ∨ 96 < count then s.refuse .patOpen .outOfRange
  else
    let t := match s.store.buffer with
      | some _ => s.failLoad
      | none => s
    { t with store := { t.store with buffer := some (openedBuffer pattern nominal leadIn dose count) } }

/-- PAT_OPEN (R99). -/
def execPatOpen (bytes : List Byte) (s : State) : Host.Outcome State Fault Refusal :=
  .next
    (s.receive bytes fun f =>
      match f.payload with
      | .patOpen _ p l i d n => some fun t => t.takePatOpen p.toNat l.toNat i.toNat d.toNat n.toNat
      | _ => none)

/-- A PAT_STEP at its owner (R101). -/
def State.takePatStep (s : State) (sequence : Nat) (entries : List RawEntry) : State :=
  match s.store.buffer with
  | none => s.flag .loadFailed
  | some b =>
    if sequence ≠ b.nextSeq then s.failLoad
    else if b.announced < b.entries.length + entries.length then s.failLoad
    else
      { s with
        store :=
          { s.store with buffer := some { b with nextSeq := b.nextSeq + 1, entries := b.entries ++ entries.map clampEntry } } }

/-- PAT_STEP (R101). -/
def execPatStep (bytes : List Byte) (s : State) : Host.Outcome State Fault Refusal :=
  .next
    (s.receive bytes fun f =>
      match f.payload with
      | .patStep _ q es => some fun t => t.takePatStep q.toNat es
      | _ => none)

/-! ### Closing and erasing (R102 to R107) -/

/-- The id is protected and a copy of it stands or is being written (R105). -/
def Store.protectedCopy (st : Store) (boundary id : Nat) : Bool :=
  decide (id ≤ boundary) && ((st.slotOf .valid id).isSome || (st.slotOf .programming id).isSome)

/-- The cause of the first check a close fails (R102 to R105); none when it passes all five. -/
def State.closeCheck (s : State) (b : Buffer) (pattern count : Nat) : Option RefusalCause :=
  if pattern ≠ b.id ∨ count ≠ b.announced ∨ b.entries.length ≠ b.announced then some .sequence
  else if structureGood b.entries = false then some .structureBad
  else if lengthGood b.nominal b.leadIn b.entries = false then some .tooLong
  else if s.store.protectedCopy s.cfg.protectBoundary b.id = true then some .protectedId
  else if s.store.emptySlot = none then some .storeFull
  else none

/-- The pattern the buffer holds. -/
def Buffer.pattern (b : Buffer) : Pattern :=
  { id := b.id, nominal := b.nominal, leadIn := b.leadIn, dose := b.dose, entries := b.entries }

/-- A close that passes reserves the lowest EMPTY slot and queues its program (R106). -/
def Store.reserve (st : Store) (b : Buffer) : Store :=
  match st.emptySlot with
  | some i =>
    Store.queueOp
      (Store.setRecord { st with buffer := none } i
        { state := .programming, id := some b.id, version := none, count := some b.entries.length })
      (.program i b.pattern)
  | none => { st with buffer := none }

/-- A PAT_CLOSE at its owner (R102, R106). -/
def State.takePatClose (s : State) (pattern count : Nat) : State :=
  match s.store.buffer with
  | none => s.refuse .patClose .sequence
  | some b =>
    match s.closeCheck b pattern count with
    | some c => State.refuse { s with store := { s.store with buffer := none } } .patClose c
    | none => { s with store := s.store.reserve b }

/-- PAT_CLOSE (R102). -/
def execPatClose (bytes : List Byte) (s : State) : Host.Outcome State Fault Refusal :=
  .next
    (s.receive bytes fun f =>
      match f.payload with
      | .patClose _ p n => some fun t => t.takePatClose p.toNat n.toNat
      | _ => none)

/-- The slot becomes RETIRED, with its retirement mark written, and its erase is queued (R97, R107). -/
def Store.retire (st : Store) (i : Fin 32) : Store :=
  let t := st.setRecord i { st.record i with state := .retired }
  Store.queueOp (t.setCell i ((t.cell i).map fun r => { r with retired := true })) (.erase i)

/-- A PAT_ERASE at its owner (R107). -/
def State.takePatErase (s : State) (pattern : Nat) : State :=
  if pattern = 0 ∨ 4095 < pattern then s.refuse .patErase .outOfRange
  else if pattern ≤ s.cfg.protectBoundary then s.refuse .patErase .protectedId
  else
    match s.store.validSlot pattern with
    | none => s.refuse .patErase .notFound
    | some i => { s with store := s.store.retire i }

/-- PAT_ERASE (R107). -/
def execPatErase (bytes : List Byte) (s : State) : Host.Outcome State Fault Refusal :=
  .next
    (s.receive bytes fun f =>
      match f.payload with
      | .patErase _ p => some fun t => t.takePatErase p.toNat
      | _ => none)

/-! ### NV operations (R108 to R114) -/

/-- SUSPEND_END: the operation is SUSPENDED, and the lookup it made way for is served (R114). -/
def execSuspendEnd (s : State) : Host.Outcome State Fault Refusal :=
  .next
    (if s.store.phase = some .suspending then { s with store := Store.portGoOn { s.store with phase := some .suspended } } else s)

/-- RESUME_END: the operation is WRITING again; a lookup that came meanwhile suspends it anew (R114). -/
def execResumeEnd (s : State) : Host.Outcome State Fault Refusal :=
  .next
    (if s.store.phase = some .resuming then { s with store := Store.portGoOn { s.store with phase := some .writing } } else s)

/-- NV_PROGRAM_COMPLETE: the running program completes and the next operation begins (R108, R109, R111). -/
def execNvProgramComplete (s : State) : Host.Outcome State Fault Refusal :=
  .next
    (match s.store.phase, s.store.ops with
    | some .writing, .program i p :: _ => { s with store := (s.store.completeProgram i p).beginOp }
    | _, _ => s)

/-- NV_ERASE_COMPLETE: the running erase completes and the next operation begins (R108, R110). -/
def execNvEraseComplete (s : State) : Host.Outcome State Fault Refusal :=
  .next
    (match s.store.phase, s.store.ops with
    | some .writing, .erase i :: _ => { s with store := (s.store.completeErase i).beginOp }
    | _, _ => s)

/-! ### The Sequencer's lookups (R134, R136, R139) -/

/-- The output length a pending field takes from an insertion's lookup (R77, R136). -/
def Panel.fillOutput (p : Panel) (found : Option Pattern) : Panel :=
  if p.outLen = .pending then
    { p with
      outLen := match found with
        | some q => .value q.outputLength
        | none =>
          match p.nominal with
          | some l => .value l
          | none => .asNominal }
  else p

/-- An insertion's lookup hands the output length to the PANEL's record; a late copy does not (R134, R135). -/
def State.fillOutput (s : State) (requester : Requester) (number : Nat) (found : Option Pattern) : State :=
  match requester with
  | .insertion =>
    { s with
      map :=
        { s.map with
          features := modifyFirst (fun f => f.isPanel number) (fun f => f.mapPanel fun p => p.fillOutput found) s.map.features } }
  | .lateCopy | .webMap => s

/-- The current context waits for the copy of this panel. -/
def State.awaitsCopy (s : State) (number : Nat) : Option Context :=
  match s.seq.current with
  | some c => if c.panel = number ∧ c.delivered = false then some c else none
  | none => none

/-- The copy reaches the current context: play begins in LEAD_IN, and in RUNOUT only the figures are taken (R139). -/
def State.deliverCurrent (s : State) (c : Context) (found : Option Pattern) : State :=
  let d := c.deliver found
  let t := { s with seq := { s.seq with current := some d } }
  match s.seq.state with
  | .leadIn => t.startPlay d
  | .idle | .folding | .tail | .runout => t

/-- The copy becomes the next context when it is the next panel's, and is dropped otherwise (R134, R135). -/
def State.deliverNext (s : State) (number : Nat) (found : Option Pattern) : State :=
  match s.nextPanel with
  | some (p, f) =>
    if p.number = number then
      { s with
        seq := { s.seq with next := some ((Context.outstanding p.number p.pattern f.entry p.nominal).deliver found) } }
    else s
  | none => s

/-- A Sequencer lookup is delivered (R134, R136, R139); the play starts before the exit that waited is taken (R77, log 45). -/
def State.deliverCopy (s : State) (requester : Requester) (number : Nat) (found : Option Pattern) : State :=
  let t := s.fillOutput requester number found
  let t := if found.isNone then t.flag .patternMissing else t
  let t :=
    match t.awaitsCopy number with
    | some c => t.deliverCurrent c found
    | none => t.deliverNext number found
  t.takeExits

/-- SEQUENCER_LOOKUP_COMPLETE: the port goes on, the output length and the context are filled, and the exits that waited are taken (R108,
R113, R134, R139, logs 9 and 18). -/
def execSequencerLookupComplete (s : State) : Host.Outcome State Fault Refusal :=
  .next
    (match s.store.serving with
    | some v =>
      if v.lookup.requester = .webMap then s
      else State.deliverCopy { s with store := s.store.endService } v.lookup.requester v.lookup.panel v.found
    | none => s)

end Sys2Proof.Machine
end

