-- ==== Sys2Proof/Machine/SeqCommands.lean ====
section
/-! DEFINITION. The meanings of the Pleat Sequencer's commands at the blade: strikes, the end of a stroke, the splice clear position
(R125, R126, R146 to R151). -/

namespace Sys2Proof.Machine

/-- A strike: a stroke begins with the strike's hand and depth word, and the next strike position is computed (R146, R147, R125). -/
def State.strike (s : State) (p : Play) (k : Strike) : State :=
  let q := p.nextStrike (s.seq.current.bind fun c => c.pattern) s.tracker.stretch
  { s with
    seq :=
      { s.seq with
        state := match q.strike with
          | some _ => .folding
          | none => .tail
        play := some q
        strokeTimer := some (s.cfg.tStroke * 1000)
        bladeStrobe := true
        bladeHand := k.hand
        bladeDepth := BitVec.ofNat 12 k.depth } }

/-- The outstanding strike position is reached: struck, overrun or missed (R146, R148, R149). -/
def State.strikeReached (s : State) (p : Play) (k : Strike) : State :=
  match s.line.state with
  | .run => if s.seq.strokeTimer = none then s.strike p k else (s.flag .strokeOverrun).abandonPanel .overrun
  | .starting | .standby | .stopping | .halting | .held => s.abandonPanel .halted

/-- The strike that is outstanding and reached (R126). -/
def State.dueStrike (s : State) : Option (Play × Strike) :=
  match s.seq.state, s.seq.play with
  | .folding, some p =>
    match p.strike with
    | some k => if atOrBefore k.pos s.tracker.position then some (p, k) else none
    | none => none
  | _, _ => none

/-- STRIKE_POSITION_REACHED (R126, R146, R148, R149). -/
def execStrikePositionReached (s : State) : Host.Outcome State Fault Refusal :=
  .next
    (match s.dueStrike with
    | some (p, k) => s.strikeReached p k
    | none => s)

/-- STROKE_TIMER_EXPIRY: BLSTB becomes inactive; hand and depth stay (R147). -/
def execStrokeTimerExpiry (s : State) : Host.Outcome State Fault Refusal :=
  .next
    (if s.seq.strokeTimer ≠ none then { s with seq := { s.seq with strokeTimer := none, bladeStrobe := false } } else s)

/-- SPLICE_CLEAR_PASSED: the clear position becomes absent (R151). -/
def execSpliceClearPassed (s : State) : Host.Outcome State Fault Refusal :=
  .next
    (match s.seq.clearPos with
    | some p => if atOrBefore p s.tracker.position then { s with seq := { s.seq with clearPos := none } } else s
    | none => s)

end Sys2Proof.Machine
end

