-- ==== Sys2Proof/Machine/SteamCommands.lean ====
section
/-! DEFINITION. The meanings of the Steam Zone Unit's and the Dose Accountant's commands: sampling, the control law, the valves, dose ticks
and segments (R156 to R165, R171 to R177). -/

namespace Sys2Proof.Machine

/-! ### A zone's sample (R157 to R162, R165) -/

/-- A raw value of an open or shorted sensor (R157). -/
def badSample (raw : Nat) : Bool := decide (raw ≤ 8) || decide (4087 ≤ raw)

/-- The temperature of a raw value (R157). -/
def temperatureOf (raw : Nat) : Nat := raw * 2500 / 4095

/-- The line states in which the setpoint is used and zones count (R160, R165). -/
def LineState.heats : LineState → Bool
  | .run | .stopping => true
  | .starting | .standby | .halting | .held => false

/-- The setpoint in use (R160). -/
def ZoneConfig.setpointFor (c : ZoneConfig) (st : LineState) : Nat := if st.heats then c.setpoint else c.setback

/-- The error of a temperature (R161). -/
def Zone.error (z : Zone) (temp : Nat) : Int := (z.setpointInUse : Int) - (temp : Int)

/-- The duty of an error (R161). -/
def Zone.dutyFor (z : Zone) (e : Int) : Nat := (clampInt 0 z.cfg.period (((z.cfg.kp : Int) * e + z.integrator) / 256)).toNat

/-- The integrator after a sample's duty is formed (R162). -/
def Zone.integrate (z : Zone) (e : Int) : Int :=
  if (z.dutyFor e = z.cfg.period ∧ 0 < e) ∨ (z.dutyFor e = 0 ∧ e < 0) then z.integrator
  else clampInt (-((z.cfg.period : Int) * 256)) ((z.cfg.period : Int) * 256) (z.integrator + (z.cfg.ki : Int) * e)

/-- A sample's control: the duty is placed as pending, and the integrator updated (R161, R162). -/
def Zone.control (z : Zone) (temp : Nat) : Zone :=
  { z with pendingDuty := some (z.dutyFor (z.error temp)), integrator := z.integrate (z.error temp) }

/-- The zone becomes FAULTED (R158). -/
def Zone.fault (z : Zone) : Zone :=
  { z with faulted := true, good := 0, integrator := 0, pendingDuty := none, duty := 0, active := false, inBand := false }

/-- A bad sample (R158, R159). -/
def Zone.takeBad (z : Zone) : Zone :=
  if z.faulted then { z with good := 0 }
  else if 3 ≤ z.bad + 1 then Zone.fault { z with bad := 3 }
  else { z with bad := z.bad + 1 }

/-- A good sample (R157 to R159). -/
def Zone.takeGood (z : Zone) (temp : Nat) : Zone :=
  if z.faulted then
    if 3 ≤ z.good + 1 then
      Zone.control { z with temperature := some temp, faulted := false, good := 3, bad := 0 } temp
    else { z with temperature := some temp, good := z.good + 1 }
  else Zone.control { z with temperature := some temp, bad := 0 } temp

/-- The in-band test (R165). -/
def Zone.bandTest (z : Zone) (st : LineState) : Bool :=
  !z.faulted && st.heats &&
    match z.temperature with
    | some t => decide ((z.cfg.setpoint : Int) - (z.cfg.band : Int) ≤ (t : Int))
    | none => false

/-- A zone's sample, whole (R156 to R162, R165). -/
def Zone.sample (z : Zone) (st : LineState) (raw : Nat) : Zone :=
  let y := { z with setpointInUse := z.cfg.setpointFor st }
  let x := if badSample raw then y.takeBad else y.takeGood (temperatureOf raw)
  { x with inBand := x.bandTest st }

/-- The record of a zone is replaced. -/
def State.setZone (s : State) (i : Nat) (z : Zone) : State := { s with steam := { s.steam with zones := s.steam.zones.set i z } }

/-- SAMPLE_TIMER_EXPIRY: the fitted zones are to be converted, in zone order (R156, log 33). -/
def execSampleTimerExpiry (s : State) : Host.Outcome State Fault Refusal :=
  .next
    (if s.steam.sampleTimer ≠ none then
      { s with steam := { s.steam with converting := List.range s.steam.zones.length } }
    else s)

/-- A conversion ends: the sample is handled, and a zone that newly becomes FAULTED latches ZONE_SENSOR (R156, R158). -/
def State.takeSample (s : State) (i raw : Nat) (z : Zone) : State :=
  let y := z.sample s.line.state raw
  let t := State.setZone { s with steam := { s.steam with converting := s.steam.converting.tail } } i y
  if y.faulted && !z.faulted then t.flag .zoneSensor else t

/-- ZONE_CONVERSION_COMPLETE: the conversion in progress is the zone's (R156 to R162, R165). -/
def execZoneConversionComplete (zone : Nat) (raw : BitVec 12) (s : State) : Host.Outcome State Fault Refusal :=
  .next
    (if s.steam.converting.head? = some zone then
      match s.steam.zones[zone]? with
      | some z => s.takeSample zone raw.toNat z
      | none => s
    else s)

/-! ### Valves (R163, R164) -/

/-- A valve period starts: the pending duty comes into use, and the valve is active unless the duty is 0 (R163, R164). -/
def Zone.startPeriod (z : Zone) : Zone :=
  { z with duty := z.pendingDuty.getD z.duty, pendingDuty := none, active := decide (0 < z.pendingDuty.getD z.duty) }

/-- VALVE_PERIOD_START (R163, R164). -/
def execValvePeriodStart (zone : Nat) (s : State) : Host.Outcome State Fault Refusal :=
  .next
    (match s.steam.zones[zone]? with
    | some z => if z.periodTimer ≠ none then s.setZone zone z.startPeriod else s
    | none => s)

/-- VALVE_ACTIVE_END: the active stretch ends before the period does (R164). -/
def execValveActiveEnd (zone : Nat) (s : State) : Host.Outcome State Fault Refusal :=
  .next
    (match s.steam.zones[zone]? with
    | some z => if z.active && decide (z.duty < z.cfg.period) then s.setZone zone { z with active := false } else s
    | none => s)

/-! ### Dose (R171, R172, R174, R176) -/

/-- DOSE_TIMER_EXPIRY: every segment is credited (R174, R175). -/
def execDoseTimerExpiry (s : State) : Host.Outcome State Fault Refusal :=
  .next
    (if s.dose.timer ≠ none then { s with dose := { s.dose with queue := s.dose.queue.map s.credit } } else s)

/-- The segments at the exit leave first; then the segment that the boundary closes is made (R171 to R173, log 17). -/
def State.makeSegment (s : State) : State :=
  let t := State.judgeAll s.dose.queue.length s
  { t with
    dose :=
      { t.dose with
        queue := if t.dose.queue.length < 64 then t.dose.queue ++ [t.newSegment t.dose.nextBoundary] else t.dose.queue
        nextBoundary := ahead t.dose.nextBoundary t.cfg.segLen } }

/-- SEGMENT_BOUNDARY (R171). -/
def execSegmentBoundary (s : State) : Host.Outcome State Fault Refusal :=
  .next
    (if s.dose.timer ≠ none ∧ reaches s.tracker.position s.dose.nextBoundary 0 = true then s.makeSegment else s)

/-- SEGMENT_AT_EXIT: the head segment is judged and removed, unless it waits for its required dose (R176, R177). -/
def execSegmentAtExit (s : State) : Host.Outcome State Fault Refusal :=
  .next
    (match s.segmentDue with
    | some g => s.judge g
    | none => s)

end Sys2Proof.Machine
end

