-- ==== Sys2Proof/Machine/SpliceCommands.lean ====
section
/-! DEFINITION. The meanings of the Splice Unit's commands: ROLL, run-out, arming, the speed match, the strobes (R184 to R197). -/

namespace Sys2Proof.Machine

/-! ### ROLL (R184) -/

/-- The position a ROLL names (R184). -/
def sideOf (position : Nat) : Option Side :=
  match position with
  | 0 => some .a
  | 1 => some .b
  | _ => none

/-- The record a taken ROLL gives, its length clamped to 2^31 (R184). -/
def announced (st : RollState) (rollId length : Nat) : Roll :=
  { state := st, id := some rollId, remaining := some (min length 2147483648) }

/-- A ROLL for a position cannot be taken now (R184). -/
def Splice.busy (u : Splice) (side : Side) : Bool :=
  match u.state with
  | .pasting | .cutting => true
  | .matching =>
    decide ((u.roll side).state = .active) || decide ((u.roll side).state = .expiring) || decide (u.incoming = some side)
  | .idle | .armed | .inhibited => decide ((u.roll side).state = .active) || decide ((u.roll side).state = .expiring)

/-- A ROLL at its owner (R184), with the tests of R187 and R188 that follow it. -/
def State.takeRoll (s : State) (position rollId length : Nat) : State :=
  if s.hasSpliceUnit = false then s.refuse .roll .notFitted
  else
    match sideOf position with
    | none => s.refuse .roll .outOfRange
    | some side =>
      if length = 0 then s.refuse .roll .outOfRange
      else if s.splice.busy side then s.refuse .roll .badState
      else if s.splice.sideIn .active = none then
        State.armTest { s with splice := s.splice.setRoll side (announced .active rollId length) }
      else State.tryMatching { s with splice := s.splice.setRoll side (announced .loaded rollId length) }

/-- ROLL (R184). -/
def execRoll (bytes : List Byte) (s : State) : Host.Outcome State Fault Refusal :=
  .next
    (s.receive bytes fun f =>
      match f.payload with
      | .roll _ r i l => some fun t => t.takeRoll r.toNat i.toNat l.toNat
      | _ => none)

/-! ### Run-out and arming (R186, R187) -/

/-- The ACTIVE roll has run out (R186). -/
def Splice.runOut (u : Splice) : Option Side :=
  match u.sideIn .active with
  | some side => if (u.roll side).remaining = some 0 then some side else none
  | none => none

/-- A run-out: the record is EMPTY, the splice state moves, and ROLL_OUT is latched (R186). -/
def State.rollOut (s : State) (side : Side) : State :=
  let t := { s with splice := s.splice.setRoll side Roll.none }
  let t :=
    match t.splice.state with
    | .idle | .armed | .inhibited => { t with splice := { t.splice with state := .idle } }
    | .matching => t.leaveMatching .idle
    | .pasting | .cutting => t
  t.latch .rollOut

/-- ROLL_RUN_OUT (R186). -/
def execRollRunOut (s : State) : Host.Outcome State Fault Refusal :=
  .next
    (match s.splice.runOut with
    | some side => s.rollOut side
    | none => s)

/-- SPLICE_ARMING: the ACTIVE roll's remaining is SPLICE_AT or less in IDLE (R187, R188). -/
def execSpliceArming (s : State) : Host.Outcome State Fault Refusal := .next (if s.hasSpliceUnit && s.ready then s.armTest else s)

/-! ### The speed match (R189 to R193) -/

/-- v_new after a splice ramp step (R189). -/
def State.rampedNew (s : State) : Nat :=
  if s.splice.vNew < s.localSpeed then min s.localSpeed (s.splice.vNew + s.cfg.acc)
  else if s.localSpeed < s.splice.vNew then max s.localSpeed (s.splice.vNew - s.cfg.dec)
  else s.splice.vNew

/-- SPLICE_RAMP_TIMER_EXPIRY (R189). -/
def execSpliceRampTimerExpiry (s : State) : Host.Outcome State Fault Refusal :=
  .next (if s.splice.state = .matching ∧ s.splice.rampTimer ≠ none then s.setVNew s.rampedNew else s)

/-- The rolls change over at a complete match (R193). -/
def Splice.changeOver (u : Splice) : Splice :=
  match u.sideIn .active with
  | some side =>
    (u.setRoll side { u.roll side with state := .expiring }).setRoll side.other { u.roll side.other with state := .active }
  | none => u

/-- PASTING is entered: the rolls change over, PASTE is active for 150 ms and the splice takes its number (R193, R197). -/
def Splice.startPaste (u : Splice) : Splice :=
  { u.changeOver with
    state := .pasting
    rampTimer := none
    matchTimer := none
    matchTimeout := none
    strobeTimer := some 150000
    paste := true
    counter := nextNumber u.counter }

/-- A complete match: PASTING is entered, v_new follows the local speed, and the SPLICE is offered P_dist ahead; with a P_dist of 0 it
reaches the entry at once (R92, R193). -/
def State.completeMatch (s : State) : State :=
  let t := State.setVNew { s with splice := s.splice.startPaste } s.localSpeed
  let t := t.offerFeature (spliceFeature s.splice.counter (ahead s.tracker.position s.cfg.pDist))
  if s.cfg.pDist = 0 then t.takeEntry else t

/-- MATCH_TIMER_EXPIRY (R190, R193). -/
def execMatchTimerExpiry (s : State) : Host.Outcome State Fault Refusal :=
  .next (if s.splice.state = .matching ∧ s.splice.matchTimer ≠ none then s.completeMatch else s)

/-- MATCH_TIMEOUT_EXPIRY: SPLICE_FAILED, INHIBITED (R191). -/
def execMatchTimeoutExpiry (s : State) : Host.Outcome State Fault Refusal :=
  .next
    (if s.splice.state = .matching ∧ s.splice.matchTimeout ≠ none then (s.leaveMatching .inhibited).flag .spliceFailed else s)

/-! ### The strobes (R194) -/

/-- PASTE_STROBE_END: PASTE ends and CUT is active for 50 ms (R194). -/
def execPasteStrobeEnd (s : State) : Host.Outcome State Fault Refusal :=
  .next
    (if s.splice.state = .pasting ∧ s.splice.strobeTimer ≠ none then
      { s with splice := { s.splice with state := .cutting, paste := false, cut := true, strobeTimer := some 50000 } }
    else s)

/-- The EXPIRING roll becomes EMPTY (R194). -/
def Splice.dropExpiring (u : Splice) : Splice :=
  match u.sideIn .expiring with
  | some side => u.setRoll side Roll.none
  | none => u

/-- The end of CUTTING: IDLE, v_new 0, and the arming test on the new ACTIVE roll (R194, R187). -/
def State.endCut (s : State) : State :=
  let t := s.setVNew 0
  State.armTest { t with splice := { t.splice.dropExpiring with state := .idle, cut := false, strobeTimer := none } }

/-- CUT_STROBE_END (R194). -/
def execCutStrobeEnd (s : State) : Host.Outcome State Fault Refusal :=
  .next (if s.splice.state = .cutting ∧ s.splice.strobeTimer ≠ none then s.endCut else s)

end Sys2Proof.Machine
end

