-- ==== Sys2Proof/Machine/StartUp.lean ====
section
/-! DEFINITION. The meanings of the supply, reset and start-up commands (R18 to R30, R116 to R118). A command whose condition does not
hold changes nothing (log 1). -/

namespace Sys2Proof.Machine

/-- POWER_ON: a reset of kind POWER_ON, held until start-up (R18, R19). -/
def execPowerOn (s : State) : Host.Outcome State Fault Refusal := .next (s.startReset .powerOn .inReset)

/-- RESET_PIN: a reset of kind PIN, held while the pin is low (R18, R19). Without supply there is nothing to reset. -/
def execResetPin (s : State) : Host.Outcome State Fault Refusal :=
  .next (if s.boot.phase = .off then s else s.startReset .pin .inReset)

/-- POWER_FAILURE: the supply fails; a running NV operation stops where it stands and the volatile state is lost (R116). -/
def execPowerFailure (s : State) : Host.Outcome State Fault Refusal := .next (s.startReset .powerOn .off)

/-- START_UP: the straps are sampled; an index of 1 to 15 starts the configuration read with its read instruction and start address,
index 0 latches CONFIG_BAD (R21, R22). -/
def execStartUp (straps : BitVec 4) (s : State) : Host.Outcome State Fault Refusal :=
  .next
    (if s.boot.phase = .inReset then
      (if straps = 0 then State.configBad { s with boot := { s.boot with index := 0 } }
      else { s with boot := { s.boot with index := straps, phase := .read, cfgSelect := true, cfgSent := readRequest } })
    else s)

/-- CONFIG_READ_COMPLETE: the block is tested; a good one is taken into force, any other latches CONFIG_BAD with the beacon timer
started (R24 to R27). -/
def execConfigReadComplete (words : List Word16) (s : State) : Host.Outcome State Fault Refusal :=
  .next
    (if s.boot.phase = .read then
      match readBlock s.boot.index words with
      | some c => s.configGood c
      | none =>
        let t := s.configBad
        { t with link := { t.link with beaconTimer := some 5000 } }
    else s)

/-- The scan is complete: start-up enters LISTEN with its 20 ms timer (R28). -/
def State.scanComplete (s : State) : State := { s with boot := { s.boot with phase := .listen, listenTimer := some 20000 } }

/-- SCAN_READ_COMPLETE: counter and table are set and slots marked; the scan is complete when none is marked (R118). The counter's
write-back to the array is whole at this command (log 46). -/
def execScanReadComplete (s : State) : Host.Outcome State Fault Refusal :=
  .next
    (if s.boot.phase = .scan ∧ s.boot.scanReading = true then
      let t :=
        { s with
          store := { s.store with table := s.store.scanTable, counter := some s.store.scanCounter }
          boot := { s.boot with scanReading := false, scanMarks := s.store.scanMarks } }
      if s.store.scanMarks.isEmpty then t.scanComplete else t
    else s)

/-- SCAN_ERASE_COMPLETE: the first marked slot becomes EMPTY; the scan is complete with the last (R118). -/
def execScanEraseComplete (s : State) : Host.Outcome State Fault Refusal :=
  .next
    (if s.boot.phase = .scan ∧ s.boot.scanReading = false then
      match s.boot.scanMarks with
      | i :: rest =>
        let t :=
          { s with
            store := (s.store.setCell i none).setRecord i SlotRecord.cleared
            boot := { s.boot with scanMarks := rest } }
        if rest.isEmpty then t.scanComplete else t
      | [] => s
    else s)

/-- LISTEN_TIMER_EXPIRY: start-up enters DONE, q_in is first taken, and the line state becomes STANDBY, or HELD with a halt-class event
latched (R29, R37, R46). -/
def execListenTimerExpiry (s : State) : Host.Outcome State Fault Refusal :=
  .next
    (if s.boot.phase = .listen ∧ s.boot.listenTimer ≠ none then
      let t := State.retakeQIn { s with boot := { s.boot with phase := .done, listenTimer := none } }
      if t.events.anyHalt then State.enterLine { t with line := { t.line with haltOrigin := t.ownIndex } } .held
      else t.enterLine .standby
    else s)

end Sys2Proof.Machine
end

