-- ==== Sys2Proof/Machine/Dispatch.lean ====
section
/-! DEFINITION. The dispatch: one arm for each command, calling its meaning. -/

namespace Sys2Proof.Machine

/-- The command's effect on everything but the queue. -/
def exec (i : Instr) (s : State) : Host.Outcome State Fault Refusal :=
  match i with
  | .powerOn => Sys2Proof.Machine.execPowerOn s
  | .resetPin => Sys2Proof.Machine.execResetPin s
  | .startUp straps => Sys2Proof.Machine.execStartUp straps s
  | .configReadComplete words => Sys2Proof.Machine.execConfigReadComplete words s
  | .scanReadComplete => Sys2Proof.Machine.execScanReadComplete s
  | .scanEraseComplete => Sys2Proof.Machine.execScanEraseComplete s
  | .listenTimerExpiry => Sys2Proof.Machine.execListenTimerExpiry s
  | .endOfGap => Sys2Proof.Machine.execEndOfGap s
  | .slotOpening slot => Sys2Proof.Machine.execSlotOpening slot s
  | .contentionPeriodTimeout => Sys2Proof.Machine.execContentionPeriodTimeout s
  | .readbackMismatch => Sys2Proof.Machine.execReadbackMismatch s
  | .frameSent => Sys2Proof.Machine.execFrameSent s
  | .receiveAbort => Sys2Proof.Machine.execReceiveAbort s
  | .beaconTimerExpiry => Sys2Proof.Machine.execBeaconTimerExpiry s
  | .halt bytes => Sys2Proof.Machine.execHalt bytes s
  | .beacon bytes => Sys2Proof.Machine.execBeacon bytes s
  | .run bytes => Sys2Proof.Machine.execRun bytes s
  | .stop bytes => Sys2Proof.Machine.execStop bytes s
  | .clear bytes => Sys2Proof.Machine.execClear bytes s
  | .release bytes => Sys2Proof.Machine.execRelease bytes s
  | .handoffPanel bytes => Sys2Proof.Machine.execHandoffPanel bytes s
  | .handoffSplice bytes => Sys2Proof.Machine.execHandoffSplice bytes s
  | .handoffReject bytes => Sys2Proof.Machine.execHandoffReject bytes s
  | .plan bytes => Sys2Proof.Machine.execPlan bytes s
  | .patOpen bytes => Sys2Proof.Machine.execPatOpen bytes s
  | .patStep bytes => Sys2Proof.Machine.execPatStep bytes s
  | .patClose bytes => Sys2Proof.Machine.execPatClose bytes s
  | .patErase bytes => Sys2Proof.Machine.execPatErase bytes s
  | .roll bytes => Sys2Proof.Machine.execRoll bytes s
  | .reportReq bytes => Sys2Proof.Machine.execReportReq bytes s
  | .report bytes => Sys2Proof.Machine.execReport bytes s
  | .restart bytes => Sys2Proof.Machine.execRestart bytes s
  | .peerAgeTimerExpiry index => Sys2Proof.Machine.execPeerAgeTimerExpiry index s
  | .rampTimerExpiry => Sys2Proof.Machine.execRampTimerExpiry s
  | .driveFaultTimerExpiry => Sys2Proof.Machine.execDriveFaultTimerExpiry s
  | .stepPeriodEnd gen => Sys2Proof.Machine.execStepPeriodEnd gen s
  | .forwardEdge count => Sys2Proof.Machine.execForwardEdge count s
  | .reverseEdge => Sys2Proof.Machine.execReverseEdge s
  | .captureTimerOverflow encoder => Sys2Proof.Machine.execCaptureTimerOverflow encoder s
  | .surfaceEncoderEdge before after count => Sys2Proof.Machine.execSurfaceEncoderEdge before after count s
  | .markSensed => Sys2Proof.Machine.execMarkSensed s
  | .handoffWindowExpiry => Sys2Proof.Machine.execHandoffWindowExpiry s
  | .markWindowExpiry => Sys2Proof.Machine.execMarkWindowExpiry s
  | .featureAtExit => Sys2Proof.Machine.execFeatureAtExit s
  | .spliceReachesEntry => Sys2Proof.Machine.execSpliceReachesEntry s
  | .webMapLookupComplete => Sys2Proof.Machine.execWebMapLookupComplete s
  | .sequencerLookupComplete => Sys2Proof.Machine.execSequencerLookupComplete s
  | .suspendEnd => Sys2Proof.Machine.execSuspendEnd s
  | .resumeEnd => Sys2Proof.Machine.execResumeEnd s
  | .nvProgramComplete => Sys2Proof.Machine.execNvProgramComplete s
  | .nvEraseComplete => Sys2Proof.Machine.execNvEraseComplete s
  | .strikePositionReached => Sys2Proof.Machine.execStrikePositionReached s
  | .strokeTimerExpiry => Sys2Proof.Machine.execStrokeTimerExpiry s
  | .spliceClearPassed => Sys2Proof.Machine.execSpliceClearPassed s
  | .sampleTimerExpiry => Sys2Proof.Machine.execSampleTimerExpiry s
  | .zoneConversionComplete zone raw => Sys2Proof.Machine.execZoneConversionComplete zone raw s
  | .valvePeriodStart zone => Sys2Proof.Machine.execValvePeriodStart zone s
  | .valveActiveEnd zone => Sys2Proof.Machine.execValveActiveEnd zone s
  | .doseTimerExpiry => Sys2Proof.Machine.execDoseTimerExpiry s
  | .segmentBoundary => Sys2Proof.Machine.execSegmentBoundary s
  | .segmentAtExit => Sys2Proof.Machine.execSegmentAtExit s
  | .rollRunOut => Sys2Proof.Machine.execRollRunOut s
  | .spliceArming => Sys2Proof.Machine.execSpliceArming s
  | .spliceRampTimerExpiry => Sys2Proof.Machine.execSpliceRampTimerExpiry s
  | .matchTimerExpiry => Sys2Proof.Machine.execMatchTimerExpiry s
  | .matchTimeoutExpiry => Sys2Proof.Machine.execMatchTimeoutExpiry s
  | .pasteStrobeEnd => Sys2Proof.Machine.execPasteStrobeEnd s
  | .cutStrobeEnd => Sys2Proof.Machine.execCutStrobeEnd s
  | .firstActivity => Sys2Proof.Machine.execFirstActivity s
  | .powerFailure => Sys2Proof.Machine.execPowerFailure s

end Sys2Proof.Machine
end

