-- ==== Sys2Proof/Safety.lean ====
section
/-! DEFINITION. The terms the statements use: when a station hears a frame, which command carries a frame, what a cause, a change of
line state or of speed brings with it, the play order written out, and what every step keeps. -/

namespace Sys2Proof.Machine

/-! ### Frames heard -/

/-- The station is receiving, the bytes are an accepted frame (R9), and the frame goes to its owning block (R10, R12, R30). -/
abbrev State.hears (s : State) (bytes : List Byte) (f : RxFrame) : Prop :=
  s.link.line = .receiving ∧ acceptFrame bytes = some f ∧ s.routes f = true

/-- The frame has ended; the station waits for the next gap (R2, R6). -/
def State.heard (s : State) : State := { s with link := { s.link with line := .waitGap } }

/-- The command a frame of this payload is (spec/opcode_table.json). -/
def commandOf (p : Payload) (bytes : List Byte) : Instr :=
  match p with
  | .halt .. => .halt bytes
  | .beacon .. => .beacon bytes
  | .handoffPanel .. => .handoffPanel bytes
  | .handoffSplice .. => .handoffSplice bytes
  | .handoffReject .. => .handoffReject bytes
  | .run .. => .run bytes
  | .stop .. => .stop bytes
  | .clear .. => .clear bytes
  | .release .. => .release bytes
  | .plan .. => .plan bytes
  | .patOpen .. => .patOpen bytes
  | .patStep .. => .patStep bytes
  | .patClose .. => .patClose bytes
  | .patErase .. => .patErase bytes
  | .roll .. => .roll bytes
  | .reportReq .. => .reportReq bytes
  | .report .. => .report bytes
  | .restart .. => .restart bytes

/-- The commands that receive a frame. -/
def frameCommands : List (List Byte → Instr) :=
  [.halt, .beacon, .handoffPanel, .handoffSplice, .handoffReject, .run, .stop, .clear, .release, .plan, .patOpen, .patStep, .patClose,
   .patErase, .roll, .reportReq, .report, .restart]

/-! ### What a command does beside its own effect -/

/-- The plan stays as it is, but that the origin's last created panel may take its first cause (R93). -/
abbrev State.planKept (s t : State) : Prop :=
  t.plan = s.plan ∨
    s.cfg.origin = true ∧ ∃ c k, s.plan.lastCreated = some c ∧ c.cause = none ∧
      t.plan = { s.plan with lastCreated := some { c with cause := some k } }

/-- What entry into HELD does to the panel at the blade in LEAD_IN and FOLDING: its play ends in RUNOUT, and it is rejected HALTED, on its
record in the list, or by a notice after it has left (R137, R152); the origin keeps that cause even where the notice is dropped (log 44). -/
abbrev State.haltedAtBlade (s t : State) : Prop :=
  t.seq = { s.seq with state := .runout, play := none } ∧ s.planKept t ∧
    t.map.features.map (fun f => f.entry) = s.map.features.map (fun f => f.entry) ∧ t.map.gateOpen = s.map.gateOpen ∧
    (s.seq.current = none → t.map = s.map ∧ t.link.handoffFifo = s.link.handoffFifo ∧ t.plan = s.plan) ∧
    ∀ d, s.seq.current = some d →
      (∀ n : Nat, n ≠ d.panel → t.panel? n = s.panel? n) ∧
      (∀ p, s.panel? d.panel = some p →
        (p.cause = none → t.panel? d.panel = some { p with cause := some .halted } ∧ t.plan = s.planAfter d.panel .halted) ∧
        (p.cause ≠ none → t.panel? d.panel = some p ∧ t.plan = s.plan) ∧ t.link.handoffFifo = s.link.handoffFifo) ∧
      (s.panel? d.panel = none → t.map = s.map ∧
        (s.isLast = true → t.plan = s.plan) ∧ (s.isLast = false → t.plan = s.planAfter d.panel .halted) ∧
        (s.isLast = true ∨ 8 ≤ s.link.handoffFifo.length ∨ t.events.has .duplicateIndex = true →
          t.link.handoffFifo = s.link.handoffFifo ∧ t.events.has .lateReject = true) ∧
        (s.isLast = false → s.link.handoffFifo.length < 8 → t.events.has .duplicateIndex = false →
          t.link.handoffFifo.map (fun f => f.payload) =
            s.link.handoffFifo.map (fun f => f.payload) ++ [.handoffReject (BitVec.ofNat 32 d.panel) 5]))

/-- The Sequencer's part in a command that may move the line state: entry into HELD halts the panel in LEAD_IN and FOLDING, and nothing else
touches the blade, the list, the handoffs or the plan (R152). -/
abbrev State.heldRule (s t : State) : Prop :=
  (t.line.state = .held ∧ s.line.state ≠ .held ∧ (s.seq.state = .leadIn ∨ s.seq.state = .folding) → s.haltedAtBlade t) ∧
    (t.line.state ≠ .held ∨ s.line.state = .held ∨ s.seq.state ≠ .leadIn ∧ s.seq.state ≠ .folding →
      t.seq = s.seq ∧ t.map = s.map ∧ t.link.handoffFifo = s.link.handoffFifo ∧ t.plan = s.plan)

/-- What follows a change of the local or of a measured speed: STEP0 is given a changed local speed, the DRIVE_FAULT timer runs while the drive
condition holds and the match timer while the match condition holds in MATCHING, each started when its condition becomes true, and v_new
is the local speed in PASTING and CUTTING (R49 to R52, R189, R190). -/
abbrev State.speedsFollowed (s t : State) : Prop :=
  (t.localSpeed = s.localSpeed ∨ s.cfg.feedDrive = false → t.step0 = s.step0) ∧
    (t.localSpeed ≠ s.localSpeed → s.cfg.feedDrive = true →
      t.step0 = s.step0.place (divisorFor s.cfg.feedTicksPerStep t.localSpeed)) ∧
    (t.driveCondition = false → t.line.driveTimer = none) ∧
    (t.driveCondition = true → t.line.driveTimer = if s.driveCondition then s.line.driveTimer else some 500000) ∧
    (t.splice.state = .matching →
      t.splice.matchTimer =
        if t.matchCondition then (if s.matchCondition then s.splice.matchTimer else some 200000) else none) ∧
    (t.splice.state = .pasting ∨ t.splice.state = .cutting → t.localSpeed ≠ s.localSpeed → t.splice.vNew = t.localSpeed)

/-- What follows when the station becomes the last, or ceases to be: a newly last station takes its OVERDUE features as exits, the last
PANEL among them directing a fitted gate; one that is no longer the last closes its gate (R81, R82). -/
abbrev State.lastFollowed (s t : State) : Prop :=
  (t.isLast = s.isLast → t.map = s.map) ∧ (t.isLast = false → s.isLast = true → t.map = { s.map with gateOpen := false }) ∧
    (t.isLast = true → s.isLast = false →
      t.map.features = s.map.features.filter (fun f => !f.overdue) ∧
      (s.cfg.rejectGate = false → t.map.gateOpen = s.map.gateOpen) ∧
      (s.cfg.rejectGate = true →
        t.map.gateOpen =
          (((s.map.features.filterMap fun f => if f.overdue then f.panel? else none).getLast?).map fun p => p.cause.isSome).getD
            s.map.gateOpen))

/-- What a reset may change in the array: nothing, but what the running operation or the erase of the start-up scan was at work on. A
program stopped in WRITING leaves its slot with its pattern, complete or without a completion marker; a copy of its id may be retired
beside a complete one, and the counter advanced or spoilt. One set aside leaves the array as it was; a stopped erase leaves its slot as
it was or with its check spoilt; the counter that the scan wrote back stays (R116 to R118, logs 5, 21 and 46). -/
abbrev State.arrayKept (s t : State) : Prop :=
  (s.store.phase = none → s.boot.scanMarks = [] → t.store.nv = s.store.nv ∧ t.store.counter = s.store.counter) ∧
    (∀ i rest, s.store.phase = none → s.boot.scanMarks = i :: rest →
      t.store.counter = s.store.counter ∧ t.store.cell i = (s.store.cell i).map (fun r => { r with checkGood := false }) ∧
      ∀ j : Fin 32, j ≠ i → t.store.cell j = s.store.cell j) ∧
    (∀ i p rest, s.store.ops = .program i p :: rest →
      (s.store.phase = some .suspending ∨ s.store.phase = some .suspended ∨ s.store.phase = some .resuming →
        t.store.nv = s.store.nv ∧ t.store.counter = s.store.counter) ∧
      (s.store.phase = some .writing →
        (∃ r, t.store.cell i = some r ∧ r.pattern = p ∧ (r.marker = false ∨ r.complete = true) ∧
          ((s.store.record i).state ≠ .valid → r.retired = false)) ∧
        (t.store.counter = s.store.counter ∨ t.store.counter = some (min (s.store.counter.getD 0 + 1) 4294967295) ∨
          t.store.counter = none) ∧
        ∀ j : Fin 32, j ≠ i →
          t.store.cell j = s.store.cell j ∨
            (s.store.record j).state = .valid ∧ (s.store.record j).id = some p.id ∧
              t.store.cell j = (s.store.cell j).map (fun r => { r with retired := true }) ∧
              (t.store.cell i).map NvRecord.complete = some true)) ∧
    (∀ i rest, s.store.phase ≠ none → s.store.ops = .erase i :: rest →
      t.store.counter = s.store.counter ∧ (∀ j : Fin 32, j ≠ i → t.store.cell j = s.store.cell j) ∧
      (t.store.cell i = s.store.cell i ∨ t.store.cell i = (s.store.cell i).map (fun r => { r with checkGood := false })))

/-- What the read port does when the lookup in service ends: an operation that waited for that begins, and is at once set aside where a
lookup waits; else the oldest waiting Sequencer lookup is served, or the oldest of the Web Map when none of the Sequencer waits, from the
table as it stands; and a SUSPENDED operation resumes when no lookup waits (R108 to R110, R112 to R114, log 9). -/
abbrev Store.wentOn (st t : Store) : Prop :=
  (∀ op rest, st.phase = none → st.ops = op :: rest →
    t = { st with serving := none, phase := t.phase, opTime := t.opTime, nv := t.nv, table := t.table } ∧
    t.phase = some (if st.seqWaiting = [] ∧ st.mapWaiting = [] then .writing else .suspending) ∧
    (∀ i p, op = .program i p →
      t.opTime = 20000 + 250 * p.entries.length ∧ t.table = st.table ∧ (∀ j : Fin 32, j ≠ i → t.cell j = st.cell j) ∧
      ∃ r, t.cell i = some r ∧ r.marker = false) ∧
    (∀ i, op = .erase i →
      t.opTime = 45000 ∧ t.nv = st.nv ∧ (∀ j : Fin 32, j ≠ i → t.record j = st.record j) ∧
      t.record i = { st.record i with state := .erasing })) ∧
    (st.phase = none ∧ st.ops = [] ∨ st.phase = some .suspended →
      (∀ l rest, st.seqWaiting = l :: rest → l.requester ≠ .webMap →
        t =
          { st with
            seqWaiting := rest
            serving :=
              some
                { lookup := l, found := st.lookup l.id
                  time := 10 + 2 * ((st.lookup l.id).map fun p => p.entries.length).getD 0 } }) ∧
      (∀ l rest, st.seqWaiting = [] → st.mapWaiting = l :: rest → l.requester = .webMap →
        t = { st with mapWaiting := rest, serving := some { lookup := l, found := st.lookup l.id, time := 10 } }) ∧
      (st.seqWaiting = [] → st.mapWaiting = [] →
        t = { st with serving := none, phase := if st.phase = none then none else some .resuming }))

/-- The lookups an insertion asks for, the Sequencer's and the Web Map's: they wait behind a lookup in service and while an operation is
being set aside or resumed, they set a WRITING operation aside, and a free port serves the first of them at once (R112 to R114). -/
abbrev Store.asked (st t : Store) (seq map : List Lookup) : Prop :=
  (seq = [] → map = [] → t = st) ∧
    (st.serving ≠ none ∨ st.phase = some .suspending ∨ st.phase = some .resuming →
      t = { st with seqWaiting := st.seqWaiting ++ seq, mapWaiting := st.mapWaiting ++ map }) ∧
    (seq ≠ [] ∨ map ≠ [] → st.serving = none → st.phase = some .writing →
      t = { st with phase := some .suspending, seqWaiting := st.seqWaiting ++ seq, mapWaiting := st.mapWaiting ++ map }) ∧
    (st.serving = none → st.phase = none → st.seqWaiting = [] → st.mapWaiting = [] →
      (∀ l, seq = [l] →
        t =
          { st with
            mapWaiting := map
            serving :=
              some
                { lookup := l, found := st.lookup l.id
                  time := 10 + 2 * ((st.lookup l.id).map fun p => p.entries.length).getD 0 } }) ∧
      (∀ l, seq = [] → map = [l] → t = { st with serving := some { lookup := l, found := st.lookup l.id, time := 10 } }))

/-- The number of the next panel: the first PANEL of the list that has not reached the blade (R132). -/
def State.nextPanelNumber (s : State) : Option Nat :=
  (s.map.features.find? fun f => f.panel?.isSome && !f.reached).bind fun f => f.panel?.map Panel.number

/-- What an inserted PANEL brings with it: its fields absent, known or pending; the lookups that fill them, the Sequencer's at a blade
station and the Web Map's; and the next context, which is given over to it when it is the next panel, OUTSTANDING, or FLAT for pattern
id 0, and stays as it is when it is not. The premise is that the next context has been that of the next panel (R77, R89, R112 to R114,
R132 to R136). -/
abbrev State.settlesPanel (s t : State) (p : Panel) (entry : Pos) : Prop :=
  p.outLen =
      (if s.cfg.blade = false then .absent
      else if p.pattern ≠ 0 then .pending
      else match p.nominal with
        | some l => .value l
        | none => .asNominal) ∧
    p.dose = (if s.cfg.zones = [] then .absent else if p.pattern ≠ 0 then .pending else .value s.cfg.doseDefault) ∧
    ((s.cfg.blade = true → s.seq.next.map (fun c => c.panel) = s.nextPanelNumber) →
      s.store.asked t.store
        (if s.cfg.blade = true ∧ p.pattern ≠ 0 then [{ requester := .insertion, panel := p.number, id := p.pattern }] else [])
        (if p.pattern ≠ 0 ∧ (p.nominal = none ∨ s.cfg.zones ≠ []) then
          [{ requester := .webMap, panel := p.number, id := p.pattern }]
        else []) ∧
      (s.cfg.blade = true → t.nextPanelNumber = some p.number →
        t.seq =
          { s.seq with
            next :=
              some
                { panel := p.number, id := p.pattern, entry := entry, nominal := p.nominal, pattern := none
                  outLen := if p.pattern = 0 then p.nominal else none
                  qPanel := 65536, cMin := none, delivered := decide (p.pattern = 0) } }) ∧
      (s.cfg.blade = false ∨ t.nextPanelNumber ≠ some p.number → t.seq = s.seq))

/-! ### At the blade (R132 to R141, R150, R151) -/

/-- A halt-class event latched now enters HELD at once: in STANDBY, and in RUN and STOPPING at v_cmd 0 (R37, R39). -/
abbrev State.haltIsHeld (s : State) : Prop :=
  s.line.state = .standby ∨ (s.line.state = .run ∨ s.line.state = .stopping) ∧ s.line.vCmd = 0

/-- The insertion lookup of this panel waits or is in service (R135). -/
abbrev Store.insertionPending (st : Store) (panel : Nat) : Prop :=
  ∃ l : Lookup, l.requester = .insertion ∧ l.panel = panel ∧ (l ∈ st.seqWaiting ∨ ∃ v, st.serving = some v ∧ v.lookup = l)

/-- The next context settled anew for the first PANEL of `after`, the features that have not reached the blade: empty without one; FLAT
for pattern id 0; OUTSTANDING while its insertion lookup is outstanding; else OUTSTANDING with a late copy asked for (R135, R136). -/
abbrev State.settlesNext (s t : State) (after : List Feature) : Prop :=
  ((∀ g ∈ after, g.panel? = none) → t.seq.next = none ∧ t.store = s.store) ∧
    ∀ (before rest : List Feature) (g : Feature) (q : Panel), after = before ++ g :: rest → (∀ h ∈ before, h.panel? = none) →
      g.panel? = some q →
      (q.pattern = 0 →
        t.store = s.store ∧
        t.seq.next =
          some
            { panel := q.number, id := 0, entry := g.entry, nominal := q.nominal, pattern := none, outLen := q.nominal
              qPanel := 65536, cMin := none, delivered := true }) ∧
      (q.pattern ≠ 0 →
        t.seq.next =
          some
            { panel := q.number, id := q.pattern, entry := g.entry, nominal := q.nominal, pattern := none, outLen := none
              qPanel := 65536, cMin := none, delivered := false } ∧
        (s.store.insertionPending q.number → t.store = s.store) ∧
        (¬ s.store.insertionPending q.number →
          s.store.asked t.store [{ requester := .lateCopy, panel := q.number, id := q.pattern }] []))

/-- A PANEL with context `c` becomes current at the blade: set up and played when the copy is DELIVERED, in LEAD_IN while it is
OUTSTANDING, in RUNOUT while a clear position is present; the blade port and the clear position stay, and the next context is settled
for the PANELs behind it (R122, R124, R135, R138, R141). -/
abbrev State.takesCurrent (s t : State) (c : Context) (after : List Feature) : Prop :=
  t.seq.current = some c ∧
    (s.seq.clearPos = none → c.delivered = true →
      t.seq.play = some (Play.setUp (ahead c.entry s.cfg.bDist) c.pattern s.tracker.stretch) ∧
      t.seq.state =
        (if ((Play.setUp (ahead c.entry s.cfg.bDist) c.pattern s.tracker.stretch).strike).isSome then .folding else .tail)) ∧
    (s.seq.clearPos = none → c.delivered = false → t.seq.play = none ∧ t.seq.state = .leadIn) ∧
    (s.seq.clearPos ≠ none → t.seq.play = none ∧ t.seq.state = .runout) ∧
    t.seq =
      { s.seq with current := t.seq.current, next := t.seq.next, play := t.seq.play, state := t.seq.state } ∧
    s.settlesNext t after

/-- The clear position a SPLICE at the blade sets: its entry position plus B_dist plus SPLICE_CLEAR, absent when that is passed already
(R150, R151). -/
abbrev State.setsClear (s t : State) (entry : Pos) : Prop :=
  ∀ clear, clear = entry + BitVec.ofNat 32 s.cfg.bDist + BitVec.ofNat 32 s.cfg.spliceClear →
    (travel s.tracker.position clear < 0 → t.seq.clearPos = some clear) ∧
    (0 ≤ travel s.tracker.position clear → t.seq.clearPos = none)

/-- A cause set from the blade: on the PANEL of the list, where it has none; else by a notice behind the handoffs that wait; at the last
station, or without room, LATE_REJECT is latched instead (R78, R86, R137). -/
abbrev State.causeFromBlade (s t : State) (number : Nat) (k : RejectCause) : Prop :=
  (∀ q, s.panel? number = some q →
    t.panel? number = some { q with cause := some (q.cause.getD k) } ∧ t.link.handoffFifo = s.link.handoffFifo) ∧
  (s.panel? number = none →
    (s.isLast = true ∨ 8 ≤ s.link.handoffFifo.length ∨ s.events.has .duplicateIndex = true →
      t.link.handoffFifo = s.link.handoffFifo ∧ t.events.has .lateReject = true) ∧
    (s.isLast = false → s.link.handoffFifo.length < 8 → s.events.has .duplicateIndex = false →
      t.link.handoffFifo.map (fun x => x.payload) =
        s.link.handoffFifo.map (fun x => x.payload) ++
          [.handoffReject (BitVec.ofNat 32 number) (BitVec.ofNat 8 k.code)]))

/-- The list after a command that moves no feature: the places and marks of its features are `fs`'s, whatever causes they have taken. -/
abbrev State.listIs (t : State) (fs : List Feature) : Prop :=
  t.map.features.map (fun g => (g.entry, g.reached, g.overdue)) = fs.map (fun g => (g.entry, g.reached, g.overdue))

/-- The current panel given up at the blade: its cause is set, and nothing of any other feature changes; a cause newly recorded sets the
rejected flag of its stretch reference; LATE_REJECT is latched where a notice of a panel that has left finds the last station or no
room; its play ends in RUNOUT (R69, R78, R86, R130, R137). -/
abbrev State.givesUpPanel (s t : State) (number : Nat) (k : RejectCause) : Prop :=
  s.causeFromBlade t number k ∧ t.listIs s.map.features ∧ (∀ n : Nat, n ≠ number → t.panel? n = s.panel? n) ∧ s.planKept t ∧
    (∀ q, s.panel? number = some q →
      t.events = s.events ∧
      t.tracker.ref =
        if q.cause = none then s.tracker.ref.map fun r => if r.number = number then { r with rejected := true } else r
        else s.tracker.ref) ∧
    (s.panel? number = none →
      t.map = s.map ∧ t.tracker = s.tracker ∧
      t.events =
        if s.isLast = true ∨ 8 ≤ s.link.handoffFifo.length ∨ s.events.has .duplicateIndex = true then s.events.set .lateReject
        else s.events) ∧
    t = { s with
          map := { s.map with features := t.map.features }
          seq := { s.seq with state := .runout, play := none }
          link := { s.link with handoffFifo := t.link.handoffFifo, serial := t.link.serial }
          events := t.events
          plan := t.plan
          tracker := { s.tracker with ref := t.tracker.ref } }

/-- What an insertion's lookup does to the record of its PANEL, and a late copy does not: a pending output length takes the pattern's, or,
with the pattern missing, the nominal length or the wait for it; every other field and record stays (R77, R134 to R136). -/
abbrev State.fillsOutput (s t : State) (v : Service) : Prop :=
  (v.lookup.requester = .lateCopy → t.map = s.map) ∧
    (v.lookup.requester = .insertion →
      t.map.gateOpen = s.map.gateOpen ∧ t.listIs s.map.features ∧ (∀ n : Nat, n ≠ v.lookup.panel → t.panel? n = s.panel? n) ∧
      ∀ p, s.panel? v.lookup.panel = some p →
        (p.outLen ≠ .pending → t.panel? v.lookup.panel = some p) ∧
        (p.outLen = .pending →
          (∀ q, v.found = some q → t.panel? v.lookup.panel = some { p with outLen := .value q.outputLength }) ∧
          (v.found = none →
            t.panel? v.lookup.panel =
              some
                { p with
                  outLen := match p.nominal with
                    | some l => .value l
                    | none => .asNominal })))

/-- What a delivered copy does to the current context: when it waits for this copy it takes the pattern's figures, or those of a FLAT
context, and in LEAD_IN it is set up and played; otherwise it stays, and the play with it (R122, R124, R127, R128, R136, R139). -/
abbrev State.takesCopy (s t : State) (v : Service) : Prop :=
  (∀ c, s.seq.current = some c → c.panel = v.lookup.panel → c.delivered = false →
    (∀ q, v.found = some q →
      t.seq.current =
        some
          { c with
            pattern := some q, outLen := some q.outputLength, qPanel := 65536 * q.outputLength / q.nominal, cMin := q.cMin
            delivered := true } ∧
      (s.seq.state = .leadIn → ∀ play, play = Play.setUp (ahead c.entry s.cfg.bDist) (some q) s.tracker.stretch →
        t.seq.play = some play ∧ t.seq.state = if play.strike = none then .tail else .folding)) ∧
    (v.found = none →
      t.seq.current = some { c with pattern := none, outLen := c.nominal, qPanel := 65536, cMin := none, delivered := true } ∧
      (s.seq.state = .leadIn → t.seq.state = .tail ∧ ∃ play, t.seq.play = some play ∧ play.strike = none)) ∧
    (s.seq.state ≠ .leadIn → t.seq.play = s.seq.play ∧ t.seq.state = s.seq.state)) ∧
  ((∀ c, s.seq.current = some c → c.panel ≠ v.lookup.panel ∨ c.delivered = true) →
    t.seq.current = s.seq.current ∧ t.seq.play = s.seq.play ∧ t.seq.state = s.seq.state)

/-! ### The operation that begins (R108 to R110) -/

/-- The slot an operation works on. -/
def NvOp.slot : NvOp → Fin 32
  | .program i _ => i
  | .erase i => i

/-- After a completion the head of the operation FIFO has begun, and none runs when it is empty: a program has its slot no longer clean,
without a completion marker, and an erase's slot is ERASING (R108 to R110). -/
abbrev Store.headBegun (t : Store) : Prop :=
  (t.ops = [] → t.phase = none) ∧
    (∀ i p rest, t.ops = .program i p :: rest →
      t.phase = some .writing ∧ t.opTime = 20000 + 250 * p.entries.length ∧
      ∃ r, t.cell i = some r ∧ r.pattern = p ∧ r.marker = false) ∧
    (∀ i rest, t.ops = .erase i :: rest → t.phase = some .writing ∧ t.opTime = 45000 ∧ (t.record i).state = .erasing)

/-! ### The play order, written out (R121, R143 to R145) -/

/-- The nominal length of an element (R121). -/
def Element.length : Element → Nat
  | .fold c _ _ => c
  | .flat l => l

/-- An element as a mirrored replay plays it: with the other hand (R121). -/
def Element.mirrored : Element → Element
  | .fold c hand d => .fold c (Hand.swapped hand) d
  | .flat l => .flat l

/-- The elements of one entry in forward play (R143). -/
def Entry.elements : Entry → List Element
  | .fold hand f d r gf gd => (List.range r).map fun k => .fold (foldConsumption f d gf gd k) hand (gradedDepth d gd k)
  | .flat l => [.flat l]
  | .group _ | .close | .mirror => []

/-- A pattern being written out: what the group being read has so far, the open groups with their counts and what stood before them, and the
contents of the group last closed. -/
structure Expansion where
  done : List Element
  isOpen : List (Nat × List Element)
  closed : List Element
  deriving DecidableEq, Repr

/-- One entry written out: a group its count of times, a MIRROR as the contents of the group just closed, once, backward and with the other
hand (R143 to R145). -/
def Expansion.take (x : Expansion) (e : Entry) : Expansion :=
  match e with
  | .fold .. | .flat _ => { x with done := x.done ++ e.elements }
  | .group c => { x with done := [], isOpen := (c, x.done) :: x.isOpen }
  | .close =>
    match x.isOpen with
    | (c, before) :: rest => { done := before ++ (List.replicate c x.done).flatten, isOpen := rest, closed := x.done }
    | [] => x
  | .mirror => { x with done := x.done ++ (x.closed.map Element.mirrored).reverse }

/-- The elements of a pattern after its lead-in, in play order (R121). -/
def playOrder (es : List Entry) : List Element := (es.foldl Expansion.take { done := [], isOpen := [], closed := [] }).done

/-- The strikes of a list of elements that begins `n` nominal ticks into the panel: each repetition's position is the base and the floor of the
scaled sum up to its end (R122, R123). -/
def strikesFrom (base : Pos) (s : Nat) : Nat → List Element → List Strike
  | _, [] => []
  | n, .flat l :: rest => strikesFrom base s (n + l) rest
  | n, .fold c hand d :: rest => { pos := ahead base ((n + c) * s / 65536), hand := hand, depth := d } :: strikesFrom base s (n + c) rest

/-- Every repeat and group count is 1 at least, as loading clamps them (R100). -/
def Entry.counts : Entry → Bool
  | .fold _ _ _ r _ _ => decide (1 ≤ r)
  | .group c => decide (1 ≤ c)
  | .flat _ | .close | .mirror => true

/-- The play of a pattern after its first `n` strikes, with one stretch throughout (R122, R124, R125). -/
def playAfter (base : Pos) (s : Nat) (p : Pattern) : Nat → Play
  | 0 => Play.setUp base (some p) s
  | n + 1 => (playAfter base s p n).nextStrike (some p) s

/-! ### What every step keeps -/

/-- A number counter runs from 1 to 4,294,967,295 (R91, R197). -/
abbrev countsFromOne (n : Nat) : Prop := 1 ≤ n ∧ n ≤ 4294967295

/-- The FIFOs, lists and queues stand within their capacities (R15, R16, R66, R76, R88, R173). -/
abbrev State.withinCapacity (s : State) : Prop :=
  s.link.handoffFifo.length ≤ 8 ∧ s.link.generalFifo.length ≤ 4 ∧ s.tracker.handoffs.length ≤ 4 ∧ s.tracker.marks.length ≤ 4 ∧
    s.map.features.length ≤ 32 ∧ s.plan.entries.length ≤ 16 ∧ s.dose.queue.length ≤ 64

/-- The values the data book bounds stand in their ranges, and handoffs and marks never wait for each other (R46, R47, R55, R64, R65, R70,
R91, R197). -/
abbrev State.withinRanges (s : State) : Prop :=
  1 ≤ s.line.qIn ∧ s.line.qIn ≤ 65536 ∧ s.tracker.debt ≤ 1000000 ∧ s.tracker.misses ≤ 255 ∧ 61440 ≤ s.tracker.stretch ∧
    s.tracker.stretch ≤ 69632 ∧ countsFromOne s.plan.counter ∧ countsFromOne s.splice.counter ∧
    (s.tracker.handoffs = [] ∨ s.tracker.marks = []) ∧ (s.seq.current.map Context.qPanel).getD 0 ≤ 65536 ∧
    (s.seq.next.map Context.qPanel).getD 0 ≤ 65536 ∧ 1 ≤ s.qOut ∧ s.qOut ≤ s.line.qIn

/-- The panel numbers of a feature list. -/
def panelNumbers (fs : List Feature) : List Nat := fs.filterMap fun f => f.panel?.map Panel.number

/-- No panel number appears twice in the Web Map (R76). -/
abbrev State.numbersUnique (s : State) : Prop := (panelNumbers s.map.features).Nodup

/-- The features stand in order of entry position (R75). -/
abbrev State.listInOrder (s : State) : Prop := s.map.features.Pairwise fun f g => 0 ≤ travel g.entry f.entry

/-- A position lies within 2^29 ticks of the web position. -/
abbrev State.isNear (s : State) (p : Pos) : Prop := -536870912 ≤ travel s.tracker.position p ∧ travel s.tracker.position p ≤ 536870912

/-- Every position the list compares lies near the web position, as the part's spans keep it (R75). -/
abbrev State.near (s : State) : Prop :=
  (∀ f ∈ s.map.features, s.isNear f.entry) ∧ (∀ p ∈ s.tracker.marks, s.isNear p) ∧ (∀ h ∈ s.tracker.handoffs, s.isNear h.arrival) ∧
    s.cfg.pDist ≤ 2000000

/-- v_cmd does not exceed MAX_SPEED, and is 0 with the ramp stopped while no configuration is in force (R41, R45). -/
abbrev State.speedLimited (s : State) : Prop :=
  s.line.vCmd ≤ s.cfg.maxSpeed ∧ (s.configured = false → s.line.vCmd = 0 ∧ s.line.rampTimer = none)

/-- At most one roll record is ACTIVE; one is EXPIRING only in PASTING and CUTTING; PASTE is active only in PASTING and CUT only in
CUTTING (R183, R193, R194). -/
abbrev Splice.sound (u : Splice) : Prop :=
  ¬ (u.rollA.state = .active ∧ u.rollB.state = .active) ∧ ¬ (u.rollA.state = .expiring ∧ u.rollB.state = .expiring) ∧
    (u.rollA.state = .expiring ∨ u.rollB.state = .expiring → u.state = .pasting ∨ u.state = .cutting) ∧
    (u.paste = true → u.state = .pasting) ∧ (u.cut = true → u.state = .cutting)

/-- A zone's duties lie within its period and its integrator within its bound; a FAULTED zone has duty zero, an inactive valve and is out of
band; a zone in band is so in RUN or STOPPING (R158, R161, R162, R165). -/
abbrev Zone.sound (z : Zone) (st : LineState) : Prop :=
  z.duty ≤ z.cfg.period ∧ z.pendingDuty.getD 0 ≤ z.cfg.period ∧ -((z.cfg.period : Int) * 256) ≤ z.integrator ∧
    z.integrator ≤ (z.cfg.period : Int) * 256 ∧
    (z.faulted = true → z.duty = 0 ∧ z.pendingDuty = none ∧ z.active = false ∧ z.inBand = false) ∧
    (z.inBand = true → st = .run ∨ st = .stopping)

/-- Every fitted zone is sound. -/
abbrev State.zonesSound (s : State) : Prop := ∀ z ∈ s.steam.zones, z.sound s.line.state

/-- BLSTB is active while the stroke timer runs, and then only; in FOLDING a strike position is outstanding (R147, R138, R146). -/
abbrev Sequencer.sound (q : Sequencer) : Prop :=
  (q.bladeStrobe = true ↔ q.strokeTimer ≠ none) ∧ (q.state = .folding → ((q.play.bind fun p => p.strike).isSome = true))

/-- No two VALID slots hold the same pattern id (R109). -/
abbrev Store.oneCopy (st : Store) : Prop :=
  ∀ i j : Fin 32, (st.record i).state = .valid → (st.record j).state = .valid → (st.record i).id = (st.record j).id →
    (st.record i).id ≠ none → i = j

/-- The pattern passes the structure and the length check of PAT_CLOSE (R103, R104). -/
abbrev Pattern.passes (p : Pattern) : Prop := structureGood p.entries = true ∧ lengthGood p.nominal p.leadIn p.entries = true

/-- An operation of the FIFO and its slot: a program's is PROGRAMMING with the id of a pattern that passes, an erase's RETIRED or ERASING
(R97, R106, R107, R110). -/
def Store.opFits (st : Store) : NvOp → Prop
  | .program i p => (st.record i).state = .programming ∧ (st.record i).id = some p.id ∧ p.passes
  | .erase i => (st.record i).state = .retired ∨ (st.record i).state = .erasing

/-- The slot is VALID or PROGRAMMING with a protected id (R105). -/
abbrev State.holdsProtected (s : State) (i : Fin 32) (id : Nat) : Prop :=
  ((s.store.record i).state = .valid ∨ (s.store.record i).state = .programming) ∧ (s.store.record i).id = some id ∧
    id ≤ s.cfg.protectBoundary

/-- The store is sound: operations wait in DONE alone, each on a slot of its own that fits it; before the scan every slot of the table is EMPTY;
a VALID slot holds a complete, unretired record of its id, and every complete record a pattern that passes PAT_CLOSE; no two slots hold one
protected id (R97, R105 to R110, R117, R119). -/
abbrev State.storeSound (s : State) : Prop :=
  (s.boot.phase ≠ .done → s.store.ops = []) ∧ (s.store.ops.map NvOp.slot).Nodup ∧ (∀ op ∈ s.store.ops, s.store.opFits op) ∧
    (s.boot.phase ≠ .done → s.boot.phase ≠ .listen → s.boot.phase ≠ .scan ∨ s.boot.scanReading = true →
      ∀ i : Fin 32, (s.store.record i).state = .empty) ∧
    (∀ i : Fin 32, (s.store.record i).state = .valid →
      ∃ r, s.store.cell i = some r ∧ r.complete = true ∧ r.retired = false ∧ (s.store.record i).id = some r.pattern.id) ∧
    (∀ (i : Fin 32) (r : NvRecord), s.store.cell i = some r → r.complete = true → r.pattern.passes) ∧
    ∀ (i j : Fin 32) (id : Nat), s.holdsProtected i id → s.holdsProtected j id → i = j

/-- A segment's dose is a number of ticks of 10 ms, or the end value 65,535 (R174). -/
abbrev Segment.sound (g : Segment) : Prop := g.dose = 65535 ∨ (g.dose % 10 = 0 ∧ g.dose ≤ 65530)

/-- Every segment of the Steam Queue has a sound dose (R173, R174). -/
abbrev State.dosesSound (s : State) : Prop := ∀ g ∈ s.dose.queue, g.sound

end Sys2Proof.Machine
end

