-- ==== Sys2Proof/WellFormed.lean ====
section
/-! DEFINITION. Which commands have operands in the ranges the data book gives them. -/

namespace Sys2Proof

/-- The bytes are an accepted frame (R9) of a kind, and, for a HANDOFF, of a feature kind. -/
def acceptedAs (test : Payload → Bool) (bytes : List Byte) : Bool :=
  match acceptFrame bytes with
  | some f => test f.payload
  | none => false

/-- A change in exactly one of the two signals (R53). -/
def Quad.isEdge (before after : Quad) : Bool := (before.a != after.a) != (before.b != after.b)

/-- The operands lie in the ranges of the data book: slots 0 to 63 (R2), web station indices 1 to 15 (R31), zones 0 to 3
(R154), at most 69 configuration words (R23), bytes that are an accepted frame of the command's kind (R9). -/
def Instr.wellFormed : Instr → Bool
  | .slotOpening slot => decide (slot < 64)
  | .configReadComplete words => decide (words.length ≤ 69)
  | .peerAgeTimerExpiry i => i != 0
  | .surfaceEncoderEdge b a _ => b.isEdge a
  | .zoneConversionComplete z _ | .valvePeriodStart z | .valveActiveEnd z => decide (z < 4)
  | .halt bs => acceptedAs (fun p => p.kind == .halt) bs
  | .beacon bs => acceptedAs (fun p => p.kind == .beacon) bs
  | .run bs => acceptedAs (fun p => p.kind == .run) bs
  | .stop bs => acceptedAs (fun p => p.kind == .stop) bs
  | .clear bs => acceptedAs (fun p => p.kind == .clear) bs
  | .release bs => acceptedAs (fun p => p.kind == .release) bs
  | .handoffPanel bs => acceptedAs (fun p => match p with | .handoffPanel .. => true | _ => false) bs
  | .handoffSplice bs => acceptedAs (fun p => match p with | .handoffSplice .. => true | _ => false) bs
  | .handoffReject bs => acceptedAs (fun p => match p with | .handoffReject .. => true | _ => false) bs
  | .plan bs => acceptedAs (fun p => p.kind == .plan) bs
  | .patOpen bs => acceptedAs (fun p => p.kind == .patOpen) bs
  | .patStep bs => acceptedAs (fun p => p.kind == .patStep) bs
  | .patClose bs => acceptedAs (fun p => p.kind == .patClose) bs
  | .patErase bs => acceptedAs (fun p => p.kind == .patErase) bs
  | .roll bs => acceptedAs (fun p => p.kind == .roll) bs
  | .reportReq bs => acceptedAs (fun p => p.kind == .reportReq) bs
  | .report bs => acceptedAs (fun p => p.kind == .report) bs
  | .restart bs => acceptedAs (fun p => p.kind == .restart) bs
  | .powerOn | .resetPin | .startUp _ | .scanReadComplete | .scanEraseComplete | .listenTimerExpiry | .endOfGap
  | .contentionPeriodTimeout | .readbackMismatch | .frameSent | .receiveAbort | .beaconTimerExpiry
  | .rampTimerExpiry | .driveFaultTimerExpiry | .stepPeriodEnd _ | .forwardEdge _ | .reverseEdge
  | .captureTimerOverflow _ | .markSensed | .handoffWindowExpiry | .markWindowExpiry | .featureAtExit
  | .spliceReachesEntry | .webMapLookupComplete | .sequencerLookupComplete | .suspendEnd | .resumeEnd
  | .nvProgramComplete | .nvEraseComplete | .strikePositionReached | .strokeTimerExpiry | .spliceClearPassed
  | .sampleTimerExpiry | .doseTimerExpiry | .segmentBoundary | .segmentAtExit | .rollRunOut | .spliceArming
  | .spliceRampTimerExpiry | .matchTimerExpiry | .matchTimeoutExpiry | .pasteStrobeEnd | .cutStrobeEnd
  | .firstActivity | .powerFailure => true

end Sys2Proof
end

