-- ==== Sys2Proof/Certificates/Slice0/Obligations.lean ====
section
/-! DEFINITION. The statements for the provers: what each command does, by the rules of the chapters, and what every step keeps. -/

open Sys2Proof Sys2Proof.Machine

/-! ### The queue and the step -/

/-- A step takes the command at the front of the queue and runs it with the rest (the model's form of a block, log 3). -/
def Obligations.StepRunsTheFrontCommand : Prop :=
  ∀ (c : Instr) (rest : List Instr) (s : State), step { s with pending := c :: rest } = exec c { s with pending := rest }

/-- Every command, in every state and with every operand, ends in a next state and leaves the waiting commands as they are:
nothing that the part meets stops it (R200, R203). The model's own reading enters here: log 1. -/
def Obligations.EveryCommandAnswersANextState : Prop :=
  ∀ (c : Instr) (s : State), ∃ t, exec c s = .next t ∧ t.pending = s.pending

/-! ### Frames (R7 to R12) -/

/-- A frame built from a payload that fits R8 is accepted, and read back as it was built. -/
def Obligations.EncodedFramesAreAccepted : Prop :=
  ∀ (sender : BitVec 4) (p : Payload), p.wellFormed = true → acceptFrame (encodeFrame sender p) = some ⟨sender, p⟩

/-- An accepted frame passes the six tests of R9: the start byte, clear bits 5 and 4 of byte 1, a good check, a kind of R8, the
class of that kind, and a payload well formed for it, of the length R8 gives it. Its bytes are its payload's fields in the order
of R8; of a PAT_STEP's entry bytes the kind and a FOLD's hand alone have a meaning (R7 to R9). -/
def Obligations.AcceptedFramesPassTheTests : Prop :=
  ∀ (bytes : List Byte) (f : RxFrame), acceptFrame bytes = some f →
    ∃ (b1 b3 : Byte) (body : List Byte),
      bytes = 0xD3 :: b1 :: f.payload.kind.code :: b3 ::
        (body ++ bytes16 (crc (b1 :: f.payload.kind.code :: b3 :: body))) ∧
      b1.extractLsb' 4 2 = 0 ∧ b1.extractLsb' 0 4 = f.sender ∧ b1.extractLsb' 6 2 = f.payload.kind.frameClass ∧
      body.length = b3.toNat ∧ f.payload.wellFormed = true ∧
      (match f.payload with
        | .halt .. | .stop .. | .clear .. | .restart .. => b3.toNat = 2
        | .release .. | .reportReq .. => b3.toNat = 3
        | .patErase .. => b3.toNat = 4
        | .handoffSplice .. | .run .. | .patClose .. => b3.toNat = 5
        | .handoffReject .. | .plan .. => b3.toNat = 6
        | .roll .. => b3.toNat = 9
        | .handoffPanel .. => b3.toNat = 12
        | .patOpen .. => b3.toNat = 13
        | .beacon .. => b3.toNat = 15
        | .patStep .. => 4 ≤ b3.toNat ∧ b3.toNat ≤ 15
        | .report .. => 4 ≤ b3.toNat ∧ b3.toNat ≤ 16) ∧
      (f.payload.kind ≠ .patStep → body = payloadBytes f.payload) ∧
      (∀ targets sequence entries, f.payload = .patStep targets sequence entries →
        ∃ heads : List Byte, heads.length = entries.length ∧
          body = bytes16 targets ++ [sequence] ++ (heads.zip entries).flatMap (fun (h, e) => h :: (entryBytes e).tail) ∧
          ∀ h e, (h, e) ∈ heads.zip entries →
            (h >>> 4) = ((entryBytes e).headD 0) >>> 4 ∧
            ∀ hand face depth rep gradeFace gradeDepth, e = .fold hand face depth rep gradeFace gradeDepth →
              (h.getLsbD 0 = true ↔ hand = .right))

/-- A frame that fails a test of R9 changes nothing but that the station waits for the next gap. An accepted frame that is not the
station's own index's and is not routed, by its target set, the start-up phase or index 0, changes nothing but that the station
waits for the next gap (R12, R21, R30); so does a REPORT, which no block owns. The model's own reading enters here: log 12. -/
def Obligations.UnprocessedFramesChangeNothing : Prop :=
  (∀ (s : State) (bytes : List Byte), s.link.line = .receiving → acceptFrame bytes = none →
     ∀ c ∈ frameCommands, exec (c bytes) s = .next s.heard) ∧
  (∀ (s : State) (bytes : List Byte) (f : RxFrame), s.link.line = .receiving → acceptFrame bytes = some f →
     (s.boot.index = 0 ∨ f.sender ≠ s.boot.index) →
     (s.boot.index = 0 ∨ s.addressed f.payload = false ∨ processes s.boot.phase f.payload.kind = false ∨ f.payload.kind = .report) →
     exec (commandOf f.payload bytes) s = .next s.heard)

/-- Another node's frame with the station's own index latches DUPLICATE_INDEX: the beacon holder and the FIFOs are emptied, the
HALT holder is closed with a HALT of cause 2 waiting in it unless it was closed before, and the frame is not processed (R10, R11).
-/
def Obligations.ForeignOwnIndexLatchesDuplicate : Prop :=
  ∀ (s : State) (bytes : List Byte) (f : RxFrame), s.link.line = .receiving → acceptFrame bytes = some f → s.boot.index ≠ 0 →
    f.sender = s.boot.index →
    ∃ t, exec (commandOf f.payload bytes) s = .next t ∧ t.events.has .duplicateIndex = true ∧ t.link.beaconWaiting = none ∧
      t.link.beaconOnLine = none ∧ t.link.handoffFifo = [] ∧ t.link.generalFifo = [] ∧ t.link.haltClosed = true ∧
      (if s.link.haltClosed then t.link.haltWaiting = s.link.haltWaiting
       else t.link.haltWaiting.map (fun f => f.payload) = some (.halt 2 (s.boot.index.setWidth 8))) ∧
      t.line.setpoint = s.line.setpoint ∧ t.line.peers = s.line.peers ∧ s.planKept t ∧ t.store = s.store ∧ t.dose = s.dose

/-! ### The line (R2 to R6, R13 to R16) -/

/-- END_OF_GAP, CONTENTION_PERIOD_TIMEOUT, FIRST_ACTIVITY and RECEIVE_ABORT move the station's view of the line, and nothing else
(R2, R3, R6). A slot that opens starts the station's ready frame of the slot's class when the slot is the station's own, and
starts nothing otherwise (R2, R3, R13 to R16). From its start the station drives the frame's bits, and drives none while it sends
no frame: each byte is a dominant start bit, eight data bits, most significant first, 0 dominant and 1 recessive, and a recessive
stop bit, each byte following the last; a receiver reads the bytes back, and dominant wins where two nodes drive (R1, R4). The
model's own reading enters here: log 16. -/
def Obligations.SlotsAndContentionMoveTheLine : Prop :=
  (∀ s : State,
     (s.awake = true → s.link.line = .waitGap ∨ s.link.line = .receiving →
       exec .endOfGap s = .next { s with link := { s.link with line := .contention 0 } }) ∧
     (∀ n, s.link.line = .contention n →
       exec .contentionPeriodTimeout s = .next { s with link := { s.link with line := .contention 0 } } ∧
       exec .firstActivity s = .next { s with link := { s.link with line := .receiving } }) ∧
     (s.link.line = .receiving → exec .receiveAbort s = .next { s with link := { s.link with line := .waitGap } })) ∧
  ((∀ (s : State) (n slot : Nat), s.link.line = .contention n → n ≤ slot → slot < 64 →
     s.driven = [] ∧
     (slot % 16 ≠ s.boot.index.toNat ∨ s.boot.index = 0 →
       exec (.slotOpening slot) s = .next { s with link := { s.link with line := .contention (slot + 1) } }) ∧
     (s.boot.index ≠ 0 → slot = s.boot.index.toNat →
       (s.link.haltWaiting = none →
         exec (.slotOpening slot) s = .next { s with link := { s.link with line := .contention (slot + 1) } }) ∧
       ∀ f, s.link.haltWaiting = some f →
         ∃ t, exec (.slotOpening slot) s = .next t ∧ t.driven = lineFrame (encodeFrame s.boot.index f.payload) ∧
           t = { s with link := { s.link with line := .sending .haltHolder f.id, haltWaiting := none, haltOnLine := some f } }) ∧
     (s.boot.index ≠ 0 → slot = 16 + s.boot.index.toNat → s.link.beaconWaiting = none →
       exec (.slotOpening slot) s = .next { s with link := { s.link with line := .contention (slot + 1) } }) ∧
     (s.boot.index ≠ 0 → slot = 16 + s.boot.index.toNat → ∀ f, s.link.beaconWaiting = some f →
       ∃ t, exec (.slotOpening slot) s = .next t ∧ t.driven = lineFrame (encodeFrame s.boot.index f.payload) ∧
         t = { s with link := { s.link with line := .sending .beaconHolder f.id, beaconWaiting := none, beaconOnLine := some f } }) ∧
     (s.boot.index ≠ 0 → slot = 32 + s.boot.index.toNat → s.link.handoffFifo = [] →
       exec (.slotOpening slot) s = .next { s with link := { s.link with line := .contention (slot + 1) } }) ∧
     (s.boot.index ≠ 0 → slot = 32 + s.boot.index.toNat → ∀ f rest, s.link.handoffFifo = f :: rest →
       ∃ t, exec (.slotOpening slot) s = .next t ∧ t.driven = lineFrame (encodeFrame s.boot.index f.payload) ∧
         t = { s with link := { s.link with line := .sending .handoffFifo f.id } }) ∧
     (s.boot.index ≠ 0 → slot = 48 + s.boot.index.toNat → s.link.generalFifo = [] →
       exec (.slotOpening slot) s = .next { s with link := { s.link with line := .contention (slot + 1) } }) ∧
     (s.boot.index ≠ 0 → slot = 48 + s.boot.index.toNat → ∀ f rest, s.link.generalFifo = f :: rest →
       ∃ t, exec (.slotOpening slot) s = .next t ∧ t.driven = lineFrame (encodeFrame s.boot.index f.payload) ∧
         t = { s with link := { s.link with line := .sending .generalFifo f.id } })) ∧
   (∀ (b : Byte) (rest : List Byte),
     lineFrame [] = [] ∧ lineFrame (b :: rest) = lineByte b ++ lineFrame rest ∧ (lineByte b).length = 10 ∧
     (lineByte b)[0]? = some .dominant ∧ (lineByte b)[9]? = some .recessive ∧
     ∀ i : Nat, i < 8 → (lineByte b)[8 - i]? = some (if b.getLsbD i then .recessive else .dominant)) ∧
   (∀ bytes : List Byte, readLine (lineFrame bytes) = some bytes) ∧
   (∀ x y : LineBit, LineBit.wired x y = .dominant ↔ x = .dominant ∨ y = .dominant))

/-- A sent frame leaves its holder or FIFO and sets the mismatch count to 0 (R4, R5, R13 to R16); a place freed in the handoff
FIFO takes the first OVERDUE feature (R80). A mismatch aborts the frame, which is ready again unless a newer one waits in its
holder; the count rises for the same frame and is 1 for another; at 3 it returns to 0 and LINK_ERROR, no halt-class event, is
latched; a sent frame sets it to 0 (R4, R5, R13 to R16). The model's own reading enters here: log 26. -/
def Obligations.FramesAreSentOrMismatched : Prop :=
  (∀ (s : State) (id : Nat),
     (s.link.line = .sending .haltHolder id →
       exec .frameSent s = .next { s with link := { s.link with line := .waitGap, mismatches := 0, haltOnLine := none } }) ∧
     (s.link.line = .sending .beaconHolder id →
       exec .frameSent s = .next { s with link := { s.link with line := .waitGap, mismatches := 0, beaconOnLine := none } }) ∧
     (s.link.line = .sending .generalFifo id →
       exec .frameSent s =
         .next { s with link := { s.link with line := .waitGap, mismatches := 0, generalFifo := s.link.generalFifo.tail } }) ∧
     (s.link.line = .sending .handoffFifo id → s.anyOverdue = false →
       exec .frameSent s =
         .next { s with link := { s.link with line := .waitGap, mismatches := 0, handoffFifo := s.link.handoffFifo.tail } }) ∧
     (s.link.line = .sending .handoffFifo id → s.link.handoffFifo.length ≤ 8 → s.link.handoffFifo ≠ [] →
       s.events.has .duplicateIndex = false →
       ∀ f before after, s.map.features = before ++ f :: after → f.overdue = true → (∀ g ∈ before, g.overdue = false) →
       exec .frameSent s =
         .next
           { s with
             link :=
               { s.link with
                 line := .waitGap
                 mismatches := 0
                 handoffFifo := s.link.handoffFifo.tail ++ [{ id := s.link.serial, payload := s.handoffOf f }]
                 serial := s.link.serial + 1 }
             map := { s.map with features := before ++ after } })) ∧
  (∀ (s : State) (p : Place) (id : Nat), s.link.line = .sending p id →
     ∃ t, exec .readbackMismatch s = .next t ∧ t.link.line = .receiving ∧ t.link.mismatchFrame = some id ∧
       (s.link.mismatchFrame ≠ some id → t.link.mismatches = 1 ∧ t.events = s.events) ∧
       (s.link.mismatchFrame = some id → s.link.mismatches < 2 → t.link.mismatches = s.link.mismatches + 1 ∧ t.events = s.events) ∧
       (s.link.mismatchFrame = some id → 2 ≤ s.link.mismatches →
         t.link.mismatches = 0 ∧ t.events = s.events.set .linkError) ∧
       (p = .haltHolder → t.link.haltOnLine = none ∧ t.link.haltWaiting = s.link.haltWaiting.or s.link.haltOnLine) ∧
       (p = .beaconHolder → t.link.beaconOnLine = none ∧ t.link.beaconWaiting = s.link.beaconWaiting.or s.link.beaconOnLine) ∧
       (p ≠ .haltHolder → t.link.haltOnLine = s.link.haltOnLine ∧ t.link.haltWaiting = s.link.haltWaiting) ∧
       (p ≠ .beaconHolder → t.link.beaconOnLine = s.link.beaconOnLine ∧ t.link.beaconWaiting = s.link.beaconWaiting) ∧
       t.link.handoffFifo = s.link.handoffFifo ∧ t.link.generalFifo = s.link.generalFifo ∧
       t = { s with link := t.link, events := t.events } ∧ Event.isHalt .linkError = false ∧
       ∃ u, exec .frameSent s = .next u ∧ u.link.mismatches = 0)

/-- Each expiry of the beacon timer replaces the waiting beacon by one built from the values as they stand, with a below-band bit
for each fitted zone that is not in band in RUN and STOPPING; none is built while DUPLICATE_INDEX is latched (R14, R11, R167). The
lead event is the latched event of lowest priority number, 0 when none is, and the number of latched events is the count of flags
(R201). q_out is max(1, floor(q_in × q_panel / 65,536)) at a blade station in FOLDING and TAIL, else q_in (R47), and a beacon
built in STARTING or with CONFIG_BAD latched carries 65,536 (R26, R27). -/
def Obligations.BeaconCarriesTheStateAtItsBuild : Prop :=
  ∀ s : State, s.link.beaconTimer ≠ none →
    (s.events.has .duplicateIndex = true → exec .beaconTimerExpiry s = .next s) ∧
    (s.events.has .duplicateIndex = false → ∃ (below : Byte) (lead count qOut : Nat),
      exec .beaconTimerExpiry s =
        .next
          { s with
            link :=
              { s.link with
                beaconWaiting :=
                  some
                    { id := s.link.serial
                      payload :=
                        .beacon (BitVec.ofNat 8 s.line.state.code) (BitVec.ofNat 24 s.ownCeiling) (BitVec.ofNat 24 s.line.vCmd)
                          (BitVec.ofNat 24 qOut) (BitVec.ofNat 8 lead) (BitVec.ofNat 8 count)
                          s.events.refusedKind s.events.refusalCause below }
                serial := s.link.serial + 1 } } ∧
      (s.events.latched = 0 → lead = 0) ∧
      (∀ n : Nat, s.events.latched.getLsbD n = true → (∀ m < n, s.events.latched.getLsbD m = false) → lead = n + 1) ∧
      count = ((List.range 18).filter fun n => s.events.latched.getLsbD n).length ∧
      (s.line.state = .starting ∨ s.events.has .configBad = true → qOut = 65536) ∧
      (s.line.state ≠ .starting → s.events.has .configBad = false →
        (s.cfg.blade = false ∨ s.seq.state ≠ .folding ∧ s.seq.state ≠ .tail → qOut = s.line.qIn) ∧
        (s.cfg.blade = true → s.seq.state = .folding ∨ s.seq.state = .tail → ∀ c, s.seq.current = some c →
          qOut = max 1 (s.line.qIn * c.qPanel / 65536))) ∧
      (s.steam.zones.length ≤ 4 → ∀ z : Nat, z < 8 →
        below.getLsbD z =
          (s.line.state.heats &&
            match s.steam.zones[z]? with
            | some zone => !zone.inBand
            | none => false)))

/-! ### Resets and start-up (R18 to R30, R116 to R118) -/

/-- The reset values of the rules (R17, R41, R48, R73, R94, R119, R153, R155, R169, R182, R198, R204) stand in the reset state;
the next boundary, which has no value until the configuration is good, stands at 0. The model's own reading enters here: log 4. -/
def Obligations.ResetStateHoldsTheResetValues : Prop :=
  State.reset.line.state = .starting ∧ State.reset.line.setpoint = 0 ∧ State.reset.target = 0 ∧ State.reset.line.vCmd = 0 ∧
    State.reset.line.qIn = 65536 ∧ State.reset.qOut = 65536 ∧ State.reset.jobCeilings = [] ∧ State.reset.ownCeiling = 0 ∧
    State.reset.line.haltOrigin = 0 ∧ State.reset.line.rampTimer = none ∧ State.reset.line.driveTimer = none ∧
    (∀ i, State.reset.line.peer i = { member := false, state := .absent, ageTimer := none, ceiling := none, qOut := none }) ∧
    State.reset.link.haltWaiting = none ∧ State.reset.link.haltOnLine = none ∧ State.reset.link.beaconWaiting = none ∧
    State.reset.link.beaconOnLine = none ∧ State.reset.link.handoffFifo = [] ∧ State.reset.link.generalFifo = [] ∧
    State.reset.link.mismatches = 0 ∧ State.reset.link.beaconTimer = none ∧ State.reset.link.haltClosed = false ∧
    State.reset.events.latched = 0 ∧ State.reset.events.refusedKind = 0 ∧ State.reset.events.refusalCause = 0 ∧
    State.reset.step0 = { inUse := .idle, waiting := none } ∧ State.reset.step1 = { inUse := .idle, waiting := none } ∧
    State.reset.tracker.position = 0 ∧ State.reset.tracker.debt = 0 ∧ State.reset.tracker.speed = 0 ∧
    State.reset.tracker.surfaceSpeed = 0 ∧ State.reset.tracker.lastMark = none ∧ State.reset.tracker.lastInterval = none ∧
    State.reset.tracker.handoffs = [] ∧ State.reset.tracker.marks = [] ∧ State.reset.tracker.misses = 0 ∧
    State.reset.tracker.stretch = 65536 ∧ State.reset.tracker.ref = none ∧ State.reset.tracker.guard = none ∧
    State.reset.map.features = [] ∧ State.reset.map.gateOpen = false ∧ State.reset.plan.entries = [] ∧
    State.reset.plan.counter = 1 ∧ State.reset.plan.lastCreated = none ∧ State.reset.store.buffer = none ∧
    State.reset.store.ops = [] ∧ State.reset.store.phase = none ∧ State.reset.store.serving = none ∧
    State.reset.seq.state = .idle ∧ State.reset.seq.current = none ∧ State.reset.seq.next = none ∧ State.reset.seq.play = none ∧
    State.reset.seq.clearPos = none ∧ State.reset.seq.bladeStrobe = false ∧ State.reset.seq.bladeDepth = 0 ∧
    State.reset.seq.strokeTimer = none ∧ State.reset.seq.bladeHand = .left ∧
    State.reset.tracker.web = { timing := false, timer := 0, overflows := 0 } ∧
    State.reset.tracker.surface = { timing := false, timer := 0, overflows := 0 } ∧ State.reset.splice.rampTimer = none ∧
    State.reset.splice.matchTimer = none ∧ State.reset.splice.matchTimeout = none ∧ State.reset.splice.strobeTimer = none ∧
    State.reset.dose.nextBoundary = 0 ∧ State.reset.steam.converting = [] ∧ State.reset.steam.zones = [] ∧
    State.reset.splice.rollA = Roll.none ∧ State.reset.splice.rollB = Roll.none ∧ State.reset.store.seqWaiting = [] ∧
    State.reset.store.mapWaiting = [] ∧ State.reset.boot.cfgSelect = false ∧ State.reset.boot.cfgSent = [] ∧
    (∀ z : Nat, State.reset.valveLevel z = .undriven) ∧ State.reset.driven = [] ∧
    State.reset.dose.queue = [] ∧ State.reset.dose.lastRejected = 0 ∧ State.reset.dose.timer = none ∧
    State.reset.steam.sampleTimer = none ∧ State.reset.splice.rollA.state = .empty ∧ State.reset.splice.rollB.state = .empty ∧
    State.reset.splice.state = .idle ∧ State.reset.splice.vNew = 0 ∧ State.reset.splice.paste = false ∧
    State.reset.splice.cut = false ∧ State.reset.splice.counter = 1

/-- POWER_ON, the RESET pin of a supplied part, and a failing supply bring every volatile item to its reset value, with the cause
of the reset; the waiting commands stay (R18, R19; that a part without supply stands at the reset values, log 22). The model's own
reading enters here: logs 22 and 4. -/
def Obligations.ResetCommandsLeaveTheResetState : Prop :=
  ∀ (s : State) (c : Instr) (cause : ResetCause) (phase : StartPhase),
    (c = .powerOn ∧ cause = .powerOn ∧ phase = .inReset ∨ c = .resetPin ∧ s.boot.phase ≠ .off ∧ cause = .pin ∧ phase = .inReset ∨
      c = .powerFailure ∧ cause = .powerOn ∧ phase = .off) →
    ∃ t, exec c s = .next t ∧
      t = { State.reset with
            pending := s.pending
            boot := { State.reset.boot with phase := phase }
            events := { State.reset.events with resetCause := cause }
            store := { State.reset.store with nv := t.store.nv, counter := t.store.counter }
            free := t.free }

/-- A reset of any kind, a taken RESTART among them, changes no slot of the array but the one the running operation or the start-
up scan works on, and the VALID slot of the id a running program writes; with nothing running in the array, and with a program set
aside for lookups, the slots and the version counter are as they were, so that such a program's slot keeps no completion marker. A
program stopped in WRITING leaves its slot with its pattern, complete or without a completion marker, and the old copy retired
only beside a complete one; a stopped erase leaves its slot as it was or with its check spoilt (R18, R20, R116 to R118). The
model's own reading enters here: logs 5, 21 and 46. -/
def Obligations.ResetsKeepTheArray : Prop :=
  ∀ (s t : State) (c : Instr),
    (c = .powerOn ∨ c = .resetPin ∧ s.boot.phase ≠ .off ∨ c = .powerFailure ∨
      ∃ bytes sender targets, c = .restart bytes ∧ s.hears bytes ⟨sender, .restart targets⟩ ∧
        (s.line.state = .standby ∨ s.line.state = .held) ∧ s.splice.state ≠ .pasting ∧ s.splice.state ≠ .cutting) →
    exec c s = .next t → s.arrayKept t ∧
    (∀ j rest, s.store.ops = .erase j :: rest → t.store.counter = s.store.counter) ∧
    ∀ i : Fin 32, t.store.cell i ≠ s.store.cell i →
      (∃ p rest, s.store.ops = .program i p :: rest) ∨ (∃ rest, s.store.ops = .erase i :: rest) ∨
      (∃ j p rest, s.store.ops = .program j p :: rest ∧ s.store.validSlot p.id = some i) ∨ (∃ rest, s.boot.scanMarks = i :: rest)

/-- A RESTART is taken in STANDBY and HELD, unless the splice is in PASTING or CUTTING: it brings every volatile item to its reset
value and leaves in the array what a reset leaves there of an operation that runs (R18, R116). It is refused BAD_STATE in those
two splice states and in RUN, STOPPING and HALTING (R20). The model's own reading enters here: logs 13, 4, 5, 21 and 46. -/
def Obligations.RestartResetsOnlyAtRest : Prop :=
  ∀ (s : State) (bytes : List Byte) (sender : BitVec 4) (targets : BitVec 16), s.hears bytes ⟨sender, .restart targets⟩ →
    (s.line.state = .standby ∨ s.line.state = .held → s.splice.state ≠ .pasting → s.splice.state ≠ .cutting →
      ∃ t, exec (.restart bytes) s = .next t ∧
        t = { State.reset with
              pending := s.pending
              events := { State.reset.events with resetCause := .restart }
              store := { State.reset.store with nv := t.store.nv, counter := t.store.counter }
              free := t.free } ∧
        s.arrayKept t) ∧
    (s.line.state = .run ∨ s.line.state = .stopping ∨ s.line.state = .halting ∨
        (s.line.state = .standby ∨ s.line.state = .held) ∧ (s.splice.state = .pasting ∨ s.splice.state = .cutting) →
      exec (.restart bytes) s =
        .next { s.heard with events := { s.events with refusedKind := 0x1C, refusalCause := 2 } })

/-- START_UP samples the straps: an index of 1 to 15 starts the configuration read, CFGSEL active, with the read instruction, the
byte 3, and the 16-bit address 0 on CFGDO, most significant bit first; index 0 latches CONFIG_BAD and ends in HELD, with no HALT
raised and no beacon timer (R21, R22). The premises of index 0 are what every reset leaves (R41, R153, R169, R198). The model's
own reading enters here: log 13. -/
def Obligations.StartUpSamplesTheStraps : Prop :=
  ∀ (s : State) (straps : BitVec 4), s.boot.phase = .inReset →
    (straps ≠ 0 →
      exec (.startUp straps) s =
        .next
          { s with
            boot :=
              { s.boot with
                index := straps
                phase := .read
                cfgSelect := true
                cfgSent :=
                  [false, false, false, false, false, false, true, true] ++ List.replicate 16 false } }) ∧
    (s.line.state = .starting → s.seq.state = .idle → s.splice.state = .idle → s.steam.zones = [] →
      exec (.startUp 0) s =
        .next
          { s with
            boot := { s.boot with index := 0, phase := .stopped, cfgSelect := false, cfgSent := [] }
            line := { s.line with state := .held, haltOrigin := 0 }
            events := s.events.set .configBad })

/-- A good block is taken into force: the beacon and ramp timers start, the Peer Table takes its members with the own entry FRESH,
every fitted zone starts inactive with duty 0, the first segment boundary lies SEG_LEN ahead, and the scan begins (R27, R31, R41,
R155, R163, R169 to R171). A block that fails a test latches CONFIG_BAD: start-up stops in HELD with the own index as halt origin,
a HALT of cause 1 waits, and the beacon timer runs (R24, R26, R37). The premises on the volatile state are what every reset
leaves. The model's own reading enters here: log 14. -/
def Obligations.ConfigurationIsTakenOrStops : Prop :=
  (∀ (s : State) (words : List Word16) (c : StationConfig), s.boot.phase = .read → readBlock s.boot.index words = some c →
     ∃ t, exec (.configReadComplete words) s = .next t ∧ t.cfg = c ∧ t.boot.phase = .scan ∧ t.boot.scanReading = true ∧
       t.boot.cfgSelect = false ∧ t.boot.cfgSent = [] ∧ t.boot.index = s.boot.index ∧ t.link = { s.link with beaconTimer := some 5000 } ∧
       t.line.rampTimer = some 1000 ∧ t.line.state = s.line.state ∧ t.line.vCmd = s.line.vCmd ∧
       (∀ i : BitVec 4,
         (t.line.peer i).member = inSet c.roster i ∧
         (t.line.peer i).state = if i = s.boot.index then .fresh else (s.line.peer i).state) ∧
       t.steam.zones.map (fun z => z.cfg) = c.zones ∧
       (∀ z zone, t.steam.zones[z]? = some zone → s.events.has .configBad = false →
         t.valveLevel z = if zone.cfg.activeLow then .high else .low) ∧
       (∀ z ∈ t.steam.zones, z.duty = 0 ∧ z.pendingDuty = none ∧ z.active = false ∧ z.faulted = false ∧ z.temperature = none ∧
         z.integrator = 0 ∧ z.inBand = false ∧ z.periodTimer = some (z.cfg.period * 1000)) ∧
       (c.zones ≠ [] →
         t.steam.sampleTimer = some 100000 ∧ t.dose.timer = some 10000 ∧ t.dose.nextBoundary = ahead s.tracker.position c.segLen) ∧
       (c.zones = [] → t.steam.sampleTimer = none ∧ t.dose = s.dose) ∧
       t = { s with cfg := t.cfg, boot := t.boot, link := t.link, line := t.line, steam := t.steam, dose := t.dose }) ∧
  (∀ (s : State) (words : List Word16), s.boot.phase = .read → readBlock s.boot.index words = none → s.boot.index ≠ 0 →
     s.link.haltClosed = false → s.line.state = .starting → s.seq.state = .idle → s.splice.state = .idle → s.steam.zones = [] →
     exec (.configReadComplete words) s =
       .next
         { s with
           boot := { s.boot with phase := .stopped, cfgSelect := false, cfgSent := [] }
           line := { s.line with state := .held, haltOrigin := s.boot.index.setWidth 8 }
           events := s.events.set .configBad
           link :=
             { s.link with
               haltWaiting := some { id := s.link.serial, payload := .halt 1 (s.boot.index.setWidth 8) }
               serial := s.link.serial + 1
               beaconTimer := some 5000 } })

/-- A good block has its signature, its length and a sum of zero; every field of the configuration is the word or the pair of
words of R23, the more significant first; the values lie in their ranges, with the zero bits zero, and satisfy the consistency
rules. And every block that passes these tests is found good, whatever its unfitted zone records hold (R23 to R25). -/
def Obligations.GoodBlocksPassTheTests : Prop :=
  (∀ (index : BitVec 4) (words : List Word16) (c : StationConfig), readBlock index words = some c →
      ∀ word pair : Nat → Nat, (∀ i, word i = (words.getD i 0xFFFF).toNat) → (∀ i, pair i = 65536 * word i + word (i + 1)) →
      word 0 = 0x41B6 ∧ word 1 = 69 ∧ ((List.range 69).map word).sum % 65536 = 0 ∧
      c.roster.toNat = word 2 ∧ c.roster.getLsbD 0 = false ∧ inSet c.roster index = true ∧
      c.origin = (word 3).testBit 0 ∧ c.feedDrive = (word 3).testBit 1 ∧ c.markSensor = (word 3).testBit 2 ∧
      c.blade = (word 3).testBit 3 ∧ c.unwind = (word 3).testBit 4 ∧ c.rejectGate = (word 3).testBit 5 ∧ word 3 / 64 % 4 = 0 ∧
      c.zones.length = word 3 / 256 % 8 ∧ word 3 / 2048 = 0 ∧ c.zones.length ≤ 4 ∧
      c.encTicks = word 4 ∧ 1 ≤ c.encTicks ∧ c.encTicks ≤ 16 ∧
      c.feedTicksPerStep = word 5 ∧ 1 ≤ c.feedTicksPerStep ∧ c.feedTicksPerStep ≤ 64 ∧
      c.newRollTicksPerStep = word 6 ∧ 1 ≤ c.newRollTicksPerStep ∧ c.newRollTicksPerStep ≤ 64 ∧
      c.maxSpeed = pair 7 ∧ 1000 ≤ c.maxSpeed ∧ c.maxSpeed ≤ 200000 ∧ c.acc = word 9 ∧ 1 ≤ c.acc ∧ c.acc ≤ 10000 ∧
      c.dec = word 10 ∧ 1 ≤ c.dec ∧ c.dec ≤ 10000 ∧ c.decFast = word 11 ∧ 1 ≤ c.decFast ∧ c.decFast ≤ 10000 ∧
      c.lSpan = pair 12 ∧ 1000 ≤ c.lSpan ∧ c.lSpan ≤ 2000000 ∧ c.bDist = pair 14 ∧ c.bDist ≤ c.lSpan ∧
      c.claimWindow = word 16 ∧ 100 ≤ c.claimWindow ∧ c.claimWindow ≤ 5000 ∧ c.tStroke = word 17 ∧ 4 ≤ c.tStroke ∧ c.tStroke ≤ 50 ∧
      c.spliceClear = word 18 ∧ c.spliceClear ≤ 60000 ∧ c.segLen = word 19 ∧ 500 ≤ c.segLen ∧ c.segLen ≤ 10000 ∧
      c.doseDefault = word 20 ∧ c.doseDefault ≤ 60000 ∧ c.spliceAt = pair 21 ∧ 1000 ≤ c.spliceAt ∧ c.spliceAt ≤ 100000000 ∧
      c.spliceSpeed = pair 23 ∧ 1000 ≤ c.spliceSpeed ∧ c.spliceSpeed ≤ c.maxSpeed ∧ c.pDist = pair 25 ∧ c.pDist ≤ 2000000 ∧
      c.protectBoundary = word 27 ∧ c.protectBoundary ≤ 4095 ∧
      (c.blade = true → c.zones = [] ∧ c.bDist = c.lSpan) ∧ (c.unwind = true → c.origin = true) ∧
      (c.origin = true → c.markSensor = true) ∧ (c.zones ≠ [] → c.lSpan ≤ 64 * c.segLen) ∧
      (∀ (z : Nat) (r : ZoneConfig), c.zones[z]? = some r →
        r =
          { start := pair (28 + 10 * z), stop := pair (30 + 10 * z), setpoint := word (32 + 10 * z), setback := word (33 + 10 * z)
            band := word (34 + 10 * z), kp := word (35 + 10 * z) / 256, ki := word (35 + 10 * z) % 256
            period := word (36 + 10 * z), activeLow := decide (word (37 + 10 * z) = 1) } ∧
        word (37 + 10 * z) ≤ 1 ∧ r.start < r.stop ∧ r.stop ≤ c.lSpan ∧ r.setpoint ≤ 2500 ∧ r.setback ≤ r.setpoint ∧ r.band ≤ 200 ∧
        r.kp ≤ 255 ∧ r.ki ≤ 255 ∧ 100 ≤ r.period ∧ r.period ≤ 5000) ∧
      c.zones.Pairwise (fun a b => a.stop ≤ b.start)) ∧
  (∀ (index : BitVec 4) (words : List Word16) (word pair : Nat → Nat) (zones : Nat),
     (∀ i, word i = (words.getD i 0xFFFF).toNat) → (∀ i, pair i = 65536 * word i + word (i + 1)) → zones = word 3 / 256 % 8 →
     word 0 = 0x41B6 → word 1 = 69 → ((List.range 69).map word).sum % 65536 = 0 →
     word 2 % 2 = 0 ∧ (word 2).testBit index.toNat = true ∧ word 3 / 64 % 4 = 0 ∧ word 3 / 2048 = 0 ∧ zones ≤ 4 →
     (1 ≤ word 4 ∧ word 4 ≤ 16) ∧ (1 ≤ word 5 ∧ word 5 ≤ 64) ∧ (1 ≤ word 6 ∧ word 6 ≤ 64) ∧ (1000 ≤ pair 7 ∧ pair 7 ≤ 200000) ∧
       (1 ≤ word 9 ∧ word 9 ≤ 10000) ∧ (1 ≤ word 10 ∧ word 10 ≤ 10000) ∧ (1 ≤ word 11 ∧ word 11 ≤ 10000) ∧
       (1000 ≤ pair 12 ∧ pair 12 ≤ 2000000) ∧ pair 14 ≤ pair 12 ∧ (100 ≤ word 16 ∧ word 16 ≤ 5000) ∧ (4 ≤ word 17 ∧ word 17 ≤ 50) ∧
       word 18 ≤ 60000 ∧ (500 ≤ word 19 ∧ word 19 ≤ 10000) ∧ word 20 ≤ 60000 ∧ (1000 ≤ pair 21 ∧ pair 21 ≤ 100000000) ∧
       (1000 ≤ pair 23 ∧ pair 23 ≤ pair 7) ∧ pair 25 ≤ 2000000 ∧ word 27 ≤ 4095 →
     (∀ z < zones, pair (28 + 10 * z) < pair (30 + 10 * z) ∧ pair (30 + 10 * z) ≤ pair 12 ∧ word (32 + 10 * z) ≤ 2500 ∧
       word (33 + 10 * z) ≤ word (32 + 10 * z) ∧ word (34 + 10 * z) ≤ 200 ∧ (100 ≤ word (36 + 10 * z) ∧ word (36 + 10 * z) ≤ 5000) ∧
       word (37 + 10 * z) ≤ 1) →
     (∀ z, z + 1 < zones → pair (30 + 10 * z) ≤ pair (38 + 10 * z)) →
     ((word 3).testBit 3 = true → zones = 0 ∧ pair 14 = pair 12) → ((word 3).testBit 4 = true → (word 3).testBit 0 = true) →
     ((word 3).testBit 0 = true → (word 3).testBit 2 = true) → (zones ≠ 0 → pair 12 ≤ 64 * word 19) →
     readBlock index words ≠ none)

/-- The scan's reading builds the slot table: a VALID slot is complete and unretired, no two hold one id, each id of a complete
unretired slot stays in its highest version, of two equal ones in the lower-numbered slot, every other slot that is not clean is
marked, and the counter is the greater of its stored value, 0 where that is spoilt, and the highest version among the complete
slots; with none marked, LISTEN begins (R117, R118, R28). Each erase of the scan leaves its slot clean and EMPTY; with the last,
LISTEN begins with its 20 ms timer (R118, R28). The model's own reading enters here: logs 21 and 46. -/
def Obligations.ScanSettlesTheSlots : Prop :=
  (∀ s : State, s.boot.phase = .scan → s.boot.scanReading = true →
     ∃ t, exec .scanReadComplete s = .next t ∧ t.store.nv = s.store.nv ∧
       (∀ i : Fin 32, (t.store.record i).state = .valid →
         ∃ r, s.store.cell i = some r ∧ r.marker = true ∧ r.checkGood = true ∧ r.retired = false ∧
           (t.store.record i).id = some r.pattern.id ∧ (t.store.record i).version = some r.version ∧
           (t.store.record i).count = some r.pattern.entries.length) ∧
       (∀ i j : Fin 32, (t.store.record i).state = .valid → (t.store.record j).state = .valid →
         (t.store.record i).id = (t.store.record j).id → i = j) ∧
       (∀ (i : Fin 32) (r : NvRecord), s.store.cell i = some r → r.marker = true → r.checkGood = true → r.retired = false →
         ∃ (j : Fin 32) (q : NvRecord), s.store.cell j = some q ∧ (t.store.record j).state = .valid ∧ q.pattern.id = r.pattern.id ∧
           r.version ≤ q.version ∧ (r.version = q.version → j ≤ i)) ∧
       (∀ i : Fin 32, s.store.cell i = none → (t.store.record i).state = .empty) ∧
       (∀ i : Fin 32, i ∈ t.boot.scanMarks ↔ (s.store.cell i).isSome = true ∧ (t.store.record i).state ≠ .valid) ∧
       (∃ n, t.store.counter = some n ∧ s.store.counter.getD 0 ≤ n ∧
         (∀ (i : Fin 32) (r : NvRecord), s.store.cell i = some r → r.marker = true → r.checkGood = true → r.version ≤ n) ∧
         (n = s.store.counter.getD 0 ∨
           ∃ (i : Fin 32) (r : NvRecord), s.store.cell i = some r ∧ r.marker = true ∧ r.checkGood = true ∧ n = r.version)) ∧
       (t.boot.scanMarks = [] → t.boot.phase = .listen ∧ t.boot.listenTimer = some 20000) ∧
       (t.boot.scanMarks ≠ [] → t.boot.phase = .scan) ∧ t.boot.scanReading = false ∧
       t = { s with boot := t.boot, store := { s.store with table := t.store.table, counter := t.store.counter } }) ∧
  (∀ (s : State) (i : Fin 32) (rest : List (Fin 32)), s.boot.phase = .scan → s.boot.scanReading = false →
     s.boot.scanMarks = i :: rest →
     ∃ t, exec .scanEraseComplete s = .next t ∧ t.store.cell i = none ∧ t.store.record i = SlotRecord.cleared ∧
       (∀ j : Fin 32, j ≠ i → t.store.cell j = s.store.cell j ∧ t.store.record j = s.store.record j) ∧ t.boot.scanMarks = rest ∧
       (rest = [] → t.boot.phase = .listen ∧ t.boot.listenTimer = some 20000) ∧ (rest ≠ [] → t.boot.phase = .scan) ∧
       t = { s with boot := t.boot, store := { s.store with nv := t.store.nv, table := t.store.table } })

/-- The listen timer's expiry enters DONE: STANDBY, or HELD with the own index as halt origin when a halt-class event is latched;
the first q_in is taken from the nearest FRESH upstream member, and kept without one and at the origin (R29, R37, R46). The
premises on the Sequencer, the splice and the zones are what start-up leaves. The model's own reading enters here: log 8. -/
def Obligations.ListenEndsInStandbyOrHeld : Prop :=
  ∀ s : State, s.boot.phase = .listen → s.boot.listenTimer ≠ none → s.seq.state = .idle → s.splice.state = .idle →
    (∀ z ∈ s.steam.zones, z.inBand = false) →
    ∃ q,
      (s.cfg.origin = true ∨ s.nearestFresh = none → q = s.line.qIn) ∧
      (s.cfg.origin = false → ∀ i v, s.nearestFresh = some i → (s.line.peer i).qOut = some v → q = clamp 1 65536 v) ∧
      exec .listenTimerExpiry s =
        .next
          { s with
            boot := { s.boot with phase := .done, listenTimer := none }
            line :=
              { s.line with
                qIn := q
                state := if s.events.anyHalt then .held else .standby
                haltOrigin := if s.events.anyHalt then s.boot.index.setWidth 8 else s.line.haltOrigin } }

/-! ### Line Control (R31 to R52) -/

/-- A latched halt-class event sets its flag; RUN and STOPPING become HALTING, or HELD at v_cmd 0, STANDBY becomes HELD, each with
the own index as halt origin, and the other states stay; a HALT with the event's priority as cause becomes the waiting one unless
the holder is closed or the station has no index; entry into HELD in LEAD_IN or FOLDING ends the panel's play in RUNOUT and
rejects it HALTED (R13, R37, R39, R152, R200). A HALT frame moves RUN and STOPPING to HALTING, or to HELD at v_cmd 0, and STANDBY
to HELD, with the origin it carries, and latches no halt-class event and raises no HALT; every zone leaves band, MATCHING returns
to ARMED with v_new 0, and entry into HELD halts the panel at the blade (R38, R39, R152, R165, R192). The model's own reading
enters here: logs 8, 23 and 44. -/
def Obligations.HaltsHaltTheLine : Prop :=
  (∀ (s : State) (e : Event), e.isHalt = true →
     (s.latch e).events.has e = true ∧
     (s.line.state = .run ∨ s.line.state = .stopping →
       (s.latch e).line.state = (if s.line.vCmd = 0 then .held else .halting) ∧ (s.latch e).line.haltOrigin = s.boot.index.setWidth 8) ∧
     (s.line.state = .standby → (s.latch e).line.state = .held ∧ (s.latch e).line.haltOrigin = s.boot.index.setWidth 8) ∧
     (s.line.state = .halting ∨ s.line.state = .held ∨ s.line.state = .starting → (s.latch e).line = s.line) ∧
     (s.link.haltClosed = false → s.boot.index ≠ 0 →
       (s.latch e).link.haltWaiting.map (fun f => f.payload) = some (.halt (BitVec.ofNat 8 e.priority) (s.boot.index.setWidth 8))) ∧
     (s.link.haltClosed = true ∨ s.boot.index = 0 → (s.latch e).link.haltWaiting = s.link.haltWaiting) ∧
     (s.latch e).line.vCmd = s.line.vCmd ∧ (s.latch e).line.peers = s.line.peers ∧ (s.latch e).line.qIn = s.line.qIn ∧
     (s.latch e).store = s.store ∧ s.heldRule (s.latch e) ∧ (s.latch e).dose = s.dose ∧
     (s.latch e).splice.rollA = s.splice.rollA ∧ (s.latch e).splice.rollB = s.splice.rollB ∧
     (s.latch e).tracker.position = s.tracker.position) ∧
  (∀ (s : State) (bytes : List Byte) (sender : BitVec 4) (cause origin : Byte), s.hears bytes ⟨sender, .halt cause origin⟩ →
     (s.line.state = .halting ∨ s.line.state = .held → exec (.halt bytes) s = .next s.heard) ∧
     (s.line.state = .run ∨ s.line.state = .stopping ∨ s.line.state = .standby →
       ∃ t, exec (.halt bytes) s = .next t ∧
         t.line =
           { s.line with
             state := if s.line.state ≠ .standby ∧ s.line.vCmd ≠ 0 then .halting else .held
             haltOrigin := origin } ∧
         (∀ e : Event, e.isHalt = true → t.events.has e = s.events.has e) ∧ t.link.haltWaiting = s.link.haltWaiting ∧
         (∀ z ∈ t.steam.zones, z.inBand = false) ∧
         (s.splice.state = .matching → t.splice.state = .armed ∧ t.splice.vNew = 0 ∧ t.splice.rampTimer = none ∧
           t.splice.matchTimer = none ∧ t.splice.matchTimeout = none) ∧
         (s.splice.state ≠ .matching → t.splice.state = s.splice.state) ∧
         s.heldRule t ∧ (s.line.state ≠ .standby → s.line.vCmd ≠ 0 → t.events = s.events ∧ t.tracker = s.tracker) ∧
         t = { s with link := t.link, events := t.events, line := t.line, steam := t.steam, splice := t.splice, step1 := t.step1,
                      map := t.map, plan := t.plan, tracker := { s.tracker with ref := t.tracker.ref }, seq := t.seq }))

/-- A RUN is taken in STANDBY when no halt-class event is latched and every member is FRESH or RELEASED: the clamped setpoint is
kept and the state is RUN, and an ARMED splice with the incoming roll LOADED begins MATCHING. Else it is refused, NOT_READY in
STANDBY and BAD_STATE in RUN, STOPPING, HALTING and HELD (R35, R188). A STOP in RUN goes to STOPPING, or through it to STANDBY at
v_cmd 0, with the setpoint kept, MATCHING back to ARMED, and the zones out of band only at STANDBY; in the other states from
STANDBY on it changes nothing (R36, R39, R165, R192). The model's own reading enters here: log 8. -/
def Obligations.RunAndStopMoveTheLine : Prop :=
  (∀ (s : State) (bytes : List Byte) (sender : BitVec 4) (targets : BitVec 16) (v : BitVec 24),
     s.hears bytes ⟨sender, .run targets v⟩ →
     (s.line.state = .standby → (∀ e : Event, e.isHalt = true → s.events.has e = false) →
       (∀ i : BitVec 4, (s.line.peer i).member = true → (s.line.peer i).state = .fresh ∨ (s.line.peer i).state = .released) →
       ∃ t, exec (.run bytes) s = .next t ∧ t.line = { s.line with state := .run, setpoint := min v.toNat s.cfg.maxSpeed } ∧
         (s.splice.state = .armed → s.splice.incomingLoaded = true →
           t.splice.state = .matching ∧ t.splice.vNew = 0 ∧ t.splice.rampTimer = some 1000 ∧
           t.splice.matchTimeout = some 10000000) ∧
         (s.splice.state ≠ .armed → t.splice = s.splice ∧ t.step1 = s.step1) ∧
         t = { s.heard with line := t.line, splice := t.splice, step1 := t.step1 }) ∧
     (s.line.state = .standby →
       ((∃ e : Event, e.isHalt = true ∧ s.events.has e = true) ∨
         ∃ i : BitVec 4, (s.line.peer i).member = true ∧ ((s.line.peer i).state = .absent ∨ (s.line.peer i).state = .stale)) →
       exec (.run bytes) s = .next { s.heard with events := { s.events with refusedKind := 0x10, refusalCause := 1 } }) ∧
     (s.line.state = .run ∨ s.line.state = .stopping ∨ s.line.state = .halting ∨ s.line.state = .held →
       exec (.run bytes) s = .next { s.heard with events := { s.events with refusedKind := 0x10, refusalCause := 2 } })) ∧
  (∀ (s : State) (bytes : List Byte) (sender : BitVec 4) (targets : BitVec 16), s.hears bytes ⟨sender, .stop targets⟩ →
     (s.line.state = .run →
       ∃ t, exec (.stop bytes) s = .next t ∧
         t.line = { s.line with state := if s.line.vCmd = 0 then .standby else .stopping } ∧
         (s.line.vCmd ≠ 0 → t.steam = s.steam) ∧ (s.line.vCmd = 0 → ∀ z ∈ t.steam.zones, z.inBand = false) ∧
         (s.splice.state = .matching → t.splice.state = .armed ∧ t.splice.vNew = 0) ∧
         (s.splice.state ≠ .matching → t.splice.state = s.splice.state) ∧
         t = { s.heard with line := t.line, steam := t.steam, splice := t.splice, step1 := t.step1 }) ∧
     (s.line.state = .standby ∨ s.line.state = .stopping ∨ s.line.state = .halting ∨ s.line.state = .held →
       exec (.stop bytes) s = .next s.heard))

/-- A CLEAR clears exactly the latched events whose condition in the table of events is gone; HELD then becomes STANDBY when no
halt-class event is left, the other states stay. The clearing of TRACK_LOST pays off the debt and the misses, gives every PANEL
without a cause TRACK_LOST, an earlier cause and every other field being kept, and sets the stretch reference's rejected flag; the
last created panel takes the cause with its record. INHIBITED becomes ARMED, or MATCHING at once (R40, R72, R87, R93, R196, R202).
The model's own reading enters here: log 35. -/
def Obligations.ClearClearsWhatIsGone : Prop :=
  ∀ (s : State) (bytes : List Byte) (sender : BitVec 4) (targets : BitVec 16), s.hears bytes ⟨sender, .clear targets⟩ →
    ∃ t, exec (.clear bytes) s = .next t ∧
      (∀ e : Event, t.events.has e =
        (s.events.has e &&
          match e with
          | .configBad | .duplicateIndex => true
          | .peerLost => !s.line.allHeard
          | .mapFull => decide (32 ≤ s.map.features.length)
          | .handoffBacklog => s.map.features.any fun f => f.overdue
          | .rollOut => !s.splice.feeding
          | .zoneSensor => s.steam.zones.any fun z => z.faulted
          | .trackLost | .driveFault | .strokeOverrun | .spliceFailed | .markMissed | .strayMark | .stretchClamp | .patternMissing
          | .lateReject | .loadFailed | .linkError => false)) ∧
      t.events.refusedKind = s.events.refusedKind ∧ t.events.refusalCause = s.events.refusalCause ∧
      t.events.resetCause = s.events.resetCause ∧
      (s.line.state = .held → (∀ e : Event, e.isHalt = true → t.events.has e = false) → t.line = { s.line with state := .standby }) ∧
      (s.line.state ≠ .held ∨ (∃ e : Event, e.isHalt = true ∧ t.events.has e = true) → t.line = s.line ∧ t.steam = s.steam) ∧
      (s.events.has .trackLost = true →
        t.tracker =
          { s.tracker with misses := 0, debt := 0, ref := s.tracker.ref.map fun r => { r with rejected := true } } ∧
        t.map =
          { s.map with
            features :=
              s.map.features.map fun f =>
                match f.body with
                | .panel p => { f with body := .panel { p with cause := some (p.cause.getD .trackLost) } }
                | .splice n a => { f with body := .splice n a } } ∧
        (∀ c, s.plan.lastCreated = some c →
          (s.cfg.origin = true → c.cause = none → c.number ∈ panelNumbers s.map.features →
            t.plan = { s.plan with lastCreated := some { c with cause := some .trackLost } }) ∧
          (s.cfg.origin = false ∨ c.cause ≠ none ∨ c.number ∉ panelNumbers s.map.features → t.plan = s.plan)) ∧
        (s.plan.lastCreated = none → t.plan = s.plan)) ∧
      (s.events.has .trackLost = false → t.tracker = s.tracker ∧ t.map = s.map ∧ t.plan = s.plan) ∧
      (s.splice.state = .inhibited →
        t.splice.state = if s.splice.incomingLoaded = true ∧ s.line.state = .run then .matching else .armed) ∧
      (s.splice.state ≠ .inhibited → s.splice.state ≠ .matching → t.splice = s.splice ∧ t.step1 = s.step1) ∧
      t = { s.heard with events := t.events, line := t.line, tracker := t.tracker, map := t.map, plan := t.plan, steam := t.steam
                         splice := t.splice, step1 := t.step1 }

/-- A member's BEACON makes its entry FRESH with the beacon's ceiling and q_out and a 20 ms age timer, and leaves the other
entries; from the nearest FRESH upstream member q_in takes the beacon's q_out, clamped, at a station other than the origin in
DONE, and at the origin and before DONE q_in stays; what depends on the local speed follows it; a station that so ceases to be the
last closes its gate; a BEACON of an index outside the roster changes nothing (R32, R46, R49 to R52, R81, R82, R190). A FRESH
entry whose age timer expires becomes STALE with its timer stopped; in RUN and STOPPING PEER_LOST is latched and the line halts,
the panel at the blade with it, and in the other states no event is latched and the line state stays; q_in is taken from the
nearest FRESH upstream member that is left (R33, R37, R46, R152). A RELEASE makes an ABSENT or STALE member's entry RELEASED and
leaves a RELEASED one; it is refused OUT_OF_RANGE for an index that is 0, above 15 or not a member, and BAD_STATE for the station
itself and for a FRESH member (R34). A station is the last when every member above it is RELEASED; a newly last one takes its
OVERDUE features as exits of the last station, without a HANDOFF (R81, R82). The model's own reading enters here: log 44. -/
def Obligations.PeersAreHeardSilentAndReleased : Prop :=
  (∀ (s : State) (bytes : List Byte) (sender : BitVec 4) (ls : Byte) (ceiling v q : BitVec 24) (le n rk rc bb : Byte),
     s.hears bytes ⟨sender, .beacon ls ceiling v q le n rk rc bb⟩ →
     ((s.line.peer sender).member = false → exec (.beacon bytes) s = .next s.heard) ∧
     ((s.line.peer sender).member = true →
       ∃ t, exec (.beacon bytes) s = .next t ∧
         t.line.peer sender =
           { member := true, state := .fresh, ageTimer := some 20000, ceiling := some ceiling.toNat, qOut := some q.toNat } ∧
         (∀ i : BitVec 4, i ≠ sender → t.line.peer i = s.line.peer i) ∧
         (s.boot.phase = .done → s.cfg.origin = false → t.nearestFresh = some sender → t.line.qIn = clamp 1 65536 q.toNat) ∧
         (s.boot.phase ≠ .done ∨ s.cfg.origin = true → t.line.qIn = s.line.qIn) ∧
         t.line.state = s.line.state ∧ t.line.vCmd = s.line.vCmd ∧ t.line.setpoint = s.line.setpoint ∧ s.speedsFollowed t ∧
         s.lastFollowed t ∧
         t = { s.heard with line := t.line, map := t.map, splice := t.splice, step0 := t.step0, step1 := t.step1 })) ∧
  (∀ (s : State) (i : BitVec 4), (s.line.peer i).state = .fresh → (s.line.peer i).ageTimer ≠ none →
     ∃ t, exec (.peerAgeTimerExpiry i) s = .next t ∧
       t.line.peer i = { s.line.peer i with state := .stale, ageTimer := none } ∧
       (∀ j : BitVec 4, j ≠ i → t.line.peer j = s.line.peer j) ∧
       (s.line.state = .run ∨ s.line.state = .stopping →
         t.events.has .peerLost = true ∧ t.line.state = if s.line.vCmd = 0 then .held else .halting) ∧
       (s.line.state ≠ .run → s.line.state ≠ .stopping →
         t.events = s.events ∧ t.line.state = s.line.state ∧ t.link = s.link ∧ t.map = s.map ∧ t.tracker = s.tracker ∧
         t.seq = s.seq ∧ t.steam = s.steam) ∧
       (s.boot.phase ≠ .done ∨ s.cfg.origin = true ∨ t.nearestFresh = none → t.line.qIn = s.line.qIn) ∧
       (s.boot.phase = .done → s.cfg.origin = false → ∀ i v, t.nearestFresh = some i → (s.line.peer i).qOut = some v →
         t.line.qIn = clamp 1 65536 v) ∧
       s.heldRule t ∧ s.speedsFollowed t ∧
       t.line.vCmd = s.line.vCmd ∧ t.line.setpoint = s.line.setpoint ∧ t.store = s.store ∧ t.dose = s.dose ∧
       t.splice.rollA = s.splice.rollA ∧ t.splice.rollB = s.splice.rollB) ∧
  (∀ (s : State) (bytes : List Byte) (sender : BitVec 4) (targets : BitVec 16) (released : Byte),
     s.hears bytes ⟨sender, .release targets released⟩ →
     (released = 0 ∨ 15 < released.toNat ∨ (s.line.peer (released.setWidth 4)).member = false →
       exec (.release bytes) s = .next { s.heard with events := { s.events with refusedKind := 0x13, refusalCause := 4 } }) ∧
     (∀ i : BitVec 4, released = i.setWidth 8 → i ≠ 0 → (s.line.peer i).member = true →
       (i = s.boot.index ∨ (s.line.peer i).state = .fresh →
         exec (.release bytes) s = .next { s.heard with events := { s.events with refusedKind := 0x13, refusalCause := 2 } }) ∧
       (i ≠ s.boot.index → (s.line.peer i).state ≠ .fresh →
         ∃ t, exec (.release bytes) s = .next t ∧ (t.line.peer i).state = .released ∧
           (∀ j : BitVec 4, j ≠ i → t.line.peer j = s.line.peer j) ∧ s.lastFollowed t ∧
           t = { s.heard with line := { s.line with peers := t.line.peers }, map := t.map })) ∧
     (s.isLast = true ↔ ∀ i : BitVec 4, s.boot.index < i → (s.line.peer i).member = true → (s.line.peer i).state = .released))

/-- Each ramp step moves v_cmd toward the target, up by ACC at most and down by DEC, or by DEC_FAST in HALTING, and never past it;
STOPPING passes to STANDBY and HALTING to HELD at the step that brings v_cmd to 0, HELD halting the panel at the blade; the other
states stay. STEP0 and the timers of the drive condition and the match condition follow the local speed (R39, R45, R49 to R52,
R152, R190). The model's own reading enters here: log 44. -/
def Obligations.RampMovesTowardTheTarget : Prop :=
  ∀ s : State, s.line.rampTimer ≠ none →
    ∃ t, exec .rampTimerExpiry s = .next t ∧
      (s.line.vCmd < s.target → t.line.vCmd = min s.target (s.line.vCmd + s.cfg.acc)) ∧
      (s.target < s.line.vCmd → s.line.state ≠ .halting → t.line.vCmd = max s.target (s.line.vCmd - s.cfg.dec)) ∧
      (s.target < s.line.vCmd → s.line.state = .halting → t.line.vCmd = max s.target (s.line.vCmd - s.cfg.decFast)) ∧
      (s.line.vCmd = s.target → t.line.vCmd = s.line.vCmd) ∧
      t.line.state =
        (if t.line.vCmd = 0 then
          match s.line.state with
          | .stopping => .standby
          | .halting => .held
          | .starting => .starting
          | .standby => .standby
          | .run => .run
          | .held => .held
        else s.line.state) ∧
      s.speedsFollowed t ∧ s.heldRule t ∧
      t.line.peers = s.line.peers ∧ t.line.qIn = s.line.qIn ∧ t.line.setpoint = s.line.setpoint ∧
      t.tracker.position = s.tracker.position ∧ t.store = s.store ∧ t.dose = s.dose ∧
      t.splice.rollA = s.splice.rollA ∧ t.splice.rollB = s.splice.rollB

/-- The target is 0 outside RUN, and while a member is ABSENT or STALE; else it is the smallest of the setpoint, the own ceiling
and the ceilings of the other FRESH members. The own ceiling is 0 outside RUN, and in RUN the smallest of MAX_SPEED and the
ceilings of the station's jobs in reference (R43, R44). -/
def Obligations.TargetIsTheSmallestLimit : Prop :=
  ∀ s : State,
    (s.line.state ≠ .run → s.target = 0 ∧ s.ownCeiling = 0) ∧
    (s.line.state = .run →
      ((∃ i : BitVec 4, (s.line.peer i).member = true ∧ ((s.line.peer i).state = .absent ∨ (s.line.peer i).state = .stale)) →
        s.target = 0) ∧
      ((∀ i : BitVec 4, (s.line.peer i).member = true → (s.line.peer i).state = .fresh ∨ (s.line.peer i).state = .released) →
        s.target ≤ s.line.setpoint ∧ s.target ≤ s.ownCeiling ∧
        (∀ (i : BitVec 4) (c : Nat), i ≠ s.boot.index → (s.line.peer i).member = true → (s.line.peer i).state = .fresh →
          (s.line.peer i).ceiling = some c → s.target ≤ c) ∧
        (s.target = s.line.setpoint ∨ s.target = s.ownCeiling ∨
          ∃ i : BitVec 4, i ≠ s.boot.index ∧ (s.line.peer i).member = true ∧ (s.line.peer i).state = .fresh ∧
            (s.line.peer i).ceiling = some s.target)) ∧
      s.ownCeiling ≤ s.cfg.maxSpeed ∧ (∀ c ∈ s.jobCeilings, s.ownCeiling ≤ s.toReference c) ∧
      (s.ownCeiling = s.cfg.maxSpeed ∨ ∃ c ∈ s.jobCeilings, s.ownCeiling = s.toReference c))

/-- The jobs supply the ceilings that the own ceiling is taken from. The pleat ceiling is floor(floor(C_min s / 65,536) 1,000 /
T_STROKE) while a context with a C_min is current at a blade station, and none otherwise (R129, R132). L_eff is the sum of end
minus start over the zones in band, and 0 outside RUN and STOPPING; the entry panel is the PANEL nearest at or before the web
position; dose_max is the greatest of the doses the segments require and the entry panel's, those pending apart, and 0 without
one; the steam ceiling is floor(L_eff 1,000 / dose_max) while dose_max is above 0 at a station with zones, and none otherwise
(R179 to R181). The splice ceiling is SPLICE_SPEED in every splice state but IDLE (R197). The model's own reading enters here: log
41. -/
def Obligations.JobsSupplyTheirCeilings : Prop :=
  ∀ s : State,
    (∀ c : Nat, c ∈ s.jobCeilings ↔ s.pleatCeiling = some c ∨ s.steamCeiling = some c ∨ s.spliceCeiling = some c) ∧
    (s.cfg.blade = false ∨ s.seq.current = none ∨ (∃ c, s.seq.current = some c ∧ c.cMin = none) → s.pleatCeiling = none) ∧
    (∀ (c : Context) (m : Nat), s.cfg.blade = true → s.seq.current = some c → c.cMin = some m →
      s.pleatCeiling = some (m * s.tracker.stretch / 65536 * 1000 / s.cfg.tStroke)) ∧
    s.inBandLength = (s.steam.zones.map fun z => if z.inBand then z.cfg.stop - z.cfg.start else 0).sum ∧
    (s.zonesSound → s.line.state ≠ .run → s.line.state ≠ .stopping → s.inBandLength = 0) ∧
    ((∀ g ∈ s.map.features, g.panel? ≠ none → travel s.tracker.position g.entry < 0) → s.entryPanel = none) ∧
    (∀ (before after : List Feature) (f : Feature) (p : Panel), s.map.features = before ++ f :: after → f.body = .panel p →
      0 ≤ travel s.tracker.position f.entry →
      (∀ g ∈ after, g.panel? ≠ none → travel s.tracker.position g.entry < 0) → s.entryPanel = some p) ∧
    (∀ g ∈ s.dose.queue, ∀ d : Nat, g.required = some d → d ≤ s.doseMax) ∧
    (∀ (p : Panel) (d : Nat), s.entryPanel = some p → p.dose = .value d → d ≤ s.doseMax) ∧
    (s.doseMax = 0 ∨ (∃ g ∈ s.dose.queue, g.required = some s.doseMax) ∨
      ∃ p : Panel, s.entryPanel = some p ∧ p.dose = .value s.doseMax) ∧
    (s.cfg.zones = [] ∨ s.doseMax = 0 → s.steamCeiling = none) ∧
    (s.cfg.zones ≠ [] → 0 < s.doseMax → s.steamCeiling = some (s.inBandLength * 1000 / s.doseMax)) ∧
    (s.splice.state = .idle → s.spliceCeiling = none) ∧ (s.splice.state ≠ .idle → s.spliceCeiling = some s.cfg.spliceSpeed)

/-- Reference and local speed: each conversion is its floor, the second is clamped to MAX_SPEED, a q_in of 65,536 leaves a speed
unchanged apart from the clamp, and a local ceiling taken to reference and back never comes out above itself (R42). -/
def Obligations.SpeedConversionsNeverExceedTheCeiling : Prop :=
  ∀ (s : State) (v : Nat), 1 ≤ s.line.qIn →
    s.toLocal v * 65536 ≤ v * s.line.qIn ∧ v * s.line.qIn < (s.toLocal v + 1) * 65536 ∧
    s.toReference v = min (v * 65536 / s.line.qIn) s.cfg.maxSpeed ∧
    (s.line.qIn = 65536 → s.toLocal v = v ∧ s.toReference v = min v s.cfg.maxSpeed) ∧
    s.toLocal (s.toReference v) ≤ v

/-- The expiry of the DRIVE_FAULT timer stops it and latches DRIVE_FAULT, which halts a running line and the panel at the blade; a
STEP generator whose period ends takes its pending divisor into use. The divisor of a local speed v is IDLE for v of 0 and for N
above 65,535, else N but 1 at least, N being floor(8,000,000 × TICKS_PER_STEP / 2 v) − 1; an idle generator takes a value at once,
and any other new divisor is pending, the latest alone, an IDLE at an idle generator among them. The drive condition and the match
condition compare a measured speed with the local speed (R49 to R52, R152, R190). The model's own reading enters here: logs 24 and
44. -/
def Obligations.DriveFaultAndStepPeriods : Prop :=
  (∀ s : State,
    (s.line.driveTimer ≠ none →
      ∃ t, exec .driveFaultTimerExpiry s = .next t ∧ t.line.driveTimer = none ∧ t.events.has .driveFault = true ∧
        (s.line.state = .run ∨ s.line.state = .stopping → t.line.state = if s.line.vCmd = 0 then .held else .halting) ∧
        (s.line.state = .standby → t.line.state = .held) ∧ t.line.vCmd = s.line.vCmd ∧ t.line.peers = s.line.peers ∧
        s.heldRule t ∧ t.tracker.position = s.tracker.position ∧ t.store = s.store ∧ t.dose = s.dose) ∧
    (∀ n d, s.step0 = { inUse := .value n, waiting := some d } →
      exec (.stepPeriodEnd .feed) s = .next { s with step0 := { inUse := d, waiting := none } }) ∧
    (∀ n d, s.step1 = { inUse := .value n, waiting := some d } →
      exec (.stepPeriodEnd .newRoll) s = .next { s with step1 := { inUse := d, waiting := none } }) ∧
    s.localSpeed = s.line.vCmd * s.line.qIn / 65536 ∧
    (s.driveCondition = true ↔ s.configured = true ∧ 1000 ≤ s.localSpeed ∧
      (s.tracker.speed + s.localSpeed / 4 < s.localSpeed ∨ s.localSpeed + s.localSpeed / 4 < s.tracker.speed)) ∧
    (s.matchCondition = true ↔ 1000 ≤ s.localSpeed ∧ s.tracker.surfaceSpeed ≤ s.localSpeed + s.localSpeed / 64 ∧
      s.localSpeed ≤ s.tracker.surfaceSpeed + s.localSpeed / 64)) ∧
  (∀ ticks v n : Nat, n = 8000000 * ticks / (2 * v) - 1 →
    divisorFor ticks v = if v = 0 ∨ 65535 < n then .idle else .value (max 1 n)) ∧
  (∀ (g : Stepper) (n : Nat) (d : Divisor),
    (g.inUse = .idle → g.place (.value n) = { inUse := .value n, waiting := none }) ∧
    (g.inUse = .value n → g.place d = { inUse := .value n, waiting := some d }) ∧
    (g.inUse = .idle → g.place .idle = { inUse := .idle, waiting := some .idle }))

/-- A REPORT_REQ for a page above 11 is refused OUT_OF_RANGE; for a page from 0 to 11 its parts join the general FIFO together, of
at most 12 bytes each, the last alone shorter, with the page number and part numbers from 0 and an empty target set, when the FIFO
has room for all of them and DUPLICATE_INDEX is not latched; else the request is dropped (R205, R16, R206). The pages have the
lengths of R206: 21 bytes, 1 and 11 for each zone, 28, 1 and 11 for each of up to three features, 31; and the fields of R206, most
significant byte first, an absent one as 0: page 0 the line state, the speeds and ratios, s, the halt origin, the reset cause and
the latched set; page 1 the zones (R168); pages 2 to 9 four slots each; page 10 the first features (R95); page 11 the rolls, the
splice and the plan (R199). The small codes are those of R8 and R206. -/
def Obligations.ReportsAreWholeAndLaidOut : Prop :=
  (∀ (s : State) (bytes : List Byte) (sender : BitVec 4) (targets : BitVec 16) (page : Byte),
     s.hears bytes ⟨sender, .reportReq targets page⟩ → s.steam.zones.length ≤ 4 →
     (11 < page.toNat →
       exec (.reportReq bytes) s = .next { s.heard with events := { s.events with refusedKind := 0x1A, refusalCause := 4 } }) ∧
     (page.toNat ≤ 11 →
       ∃ contents : List (List Byte), contents.flatten = s.page page.toNat ∧ 1 ≤ contents.length ∧ contents.length ≤ 4 ∧
         (∀ c ∈ contents, c.length ≤ 12) ∧ (∀ c ∈ contents.dropLast, c.length = 12) ∧
         (s.link.generalFifo.length + contents.length ≤ 4 → s.events.has .duplicateIndex = false →
           ∃ t, exec (.reportReq bytes) s = .next t ∧
             t.link.generalFifo.map (fun f => f.payload) =
               s.link.generalFifo.map (fun f => f.payload) ++
                 contents.zipIdx.map (fun (c, k) => Payload.report 0 page (BitVec.ofNat 8 k) c) ∧
             t = { s.heard with link := { s.heard.link with generalFifo := t.link.generalFifo, serial := t.link.serial } }) ∧
         (4 < s.link.generalFifo.length + contents.length ∨ s.events.has .duplicateIndex = true →
           exec (.reportReq bytes) s = .next s.heard))) ∧
  (∀ s : State,
     (s.page 0).length = 21 ∧ (s.page 1).length = 1 + 11 * s.steam.zones.length ∧
     (∀ n, 2 ≤ n → n ≤ 9 → (s.page n).length = 28) ∧ (s.page 10).length = 1 + 11 * min 3 s.map.features.length ∧
     (s.page 11).length = 31 ∧
     s.page 0 =
       [BitVec.ofNat 8 s.line.state.code] ++ bytes24 (BitVec.ofNat 24 s.line.vCmd) ++ bytes24 (BitVec.ofNat 24 s.target) ++
         bytes24 (BitVec.ofNat 24 s.line.qIn) ++ bytes24 (BitVec.ofNat 24 s.qOut) ++ bytes24 (BitVec.ofNat 24 s.tracker.stretch) ++
         [s.line.haltOrigin] ++ [BitVec.ofNat 8 s.events.resetCause.code] ++ bytes24 (s.events.latched.setWidth 24) ∧
     (s.page 1).head? = some (BitVec.ofNat 8 s.steam.zones.length) ∧
     (∀ (z : Nat) (r : Zone), s.steam.zones[z]? = some r →
       ((s.page 1).drop (1 + 11 * z)).take 11 =
         [if r.faulted then 1 else 0] ++ bytes16 (BitVec.ofNat 16 (r.temperature.getD 0)) ++ bytes16 (BitVec.ofNat 16 r.setpointInUse) ++
           bytes16 (BitVec.ofNat 16 r.duty) ++ bytes24 (BitVec.ofInt 24 r.integrator) ++ [if r.inBand then 1 else 0]) ∧
     (∀ (n k : Nat) (i : Fin 32), 2 ≤ n → k < 4 → i.val = 4 * (n - 2) + k →
       ((s.page n).drop (7 * k)).take 7 =
         bytes16 (BitVec.ofNat 16 ((s.store.record i).id.getD 0)) ++ [BitVec.ofNat 8 (s.store.record i).state.code] ++
           bytes32 (BitVec.ofNat 32 ((s.store.record i).version.getD 0))) ∧
     (s.page 10).head? = some (BitVec.ofNat 8 s.map.features.length) ∧
     (∀ (k : Nat) (f : Feature), k < 3 → s.map.features[k]? = some f →
       ((s.page 10).drop (1 + 11 * k)).take 11 =
         match f.body with
         | .panel p =>
           [1] ++ bytes32 (BitVec.ofNat 32 p.number) ++ bytes32 f.entry ++ [BitVec.ofNat 8 ((p.cause.map RejectCause.code).getD 0)] ++
             [if f.overdue then 1 else 0]
         | .splice n _ => [2] ++ bytes32 (BitVec.ofNat 32 n) ++ bytes32 f.entry ++ [0] ++ [if f.overdue then 1 else 0]) ∧
     (s.page 11 =
       [BitVec.ofNat 8 s.splice.rollA.state.code] ++ bytes16 (BitVec.ofNat 16 (s.splice.rollA.id.getD 0)) ++
         bytes32 (BitVec.ofNat 32 (s.splice.rollA.remaining.getD 0)) ++ [BitVec.ofNat 8 s.splice.rollB.state.code] ++
         bytes16 (BitVec.ofNat 16 (s.splice.rollB.id.getD 0)) ++ bytes32 (BitVec.ofNat 32 (s.splice.rollB.remaining.getD 0)) ++
         [BitVec.ofNat 8 s.splice.state.code] ++ bytes32 (BitVec.ofNat 32 s.splice.counter) ++ bytes24 (BitVec.ofNat 24 s.splice.vNew) ++
         [BitVec.ofNat 8 s.plan.entries.length] ++ bytes16 (BitVec.ofNat 16 ((s.plan.entries.head?.map PlanEntry.pattern).getD 0)) ++
         bytes16 (BitVec.ofNat 16 ((s.plan.entries.head?.map PlanEntry.count).getD 0)) ++ bytes32 (BitVec.ofNat 32 s.plan.counter)) ∧
     [LineState.starting, .standby, .run, .stopping, .halting, .held].map LineState.code = [0, 1, 2, 3, 4, 5] ∧
     [SlotState.empty, .programming, .valid, .retired, .erasing].map SlotState.code = [0, 1, 2, 3, 4] ∧
     [RollState.empty, .loaded, .active, .expiring].map RollState.code = [0, 1, 2, 3] ∧
     [SpliceState.idle, .armed, .matching, .pasting, .cutting, .inhibited].map SpliceState.code = [0, 1, 2, 3, 4, 5] ∧
     [RejectCause.blank, .spliced, .overrun, .truncated, .halted, .underdosed, .trackLost].map RejectCause.code =
       [1, 2, 3, 4, 5, 6, 7])

/-! ### Web Tracker (R53 to R73) -/

/-- A forward edge pays the debt first and advances by what is left of ENC_TICKS, modulo 2^32; the ACTIVE and the EXPIRING roll
are counted down by the advance, not below 0; the capture measures from the edge before it, or starts, and the timers of the drive
condition and the match condition follow the measured speed. What the advance reaches comes as commands of its own (R52, R54, R56,
R185, R190). The model's own reading enters here: log 2. -/
def Obligations.ForwardEdgesPayTheDebtThenAdvance : Prop :=
  ∀ (s : State) (count : BitVec 16), s.configured = true →
    ∃ (t : State) (advance : Nat), exec (.forwardEdge count) s = .next t ∧
      (s.cfg.encTicks ≤ s.tracker.debt → advance = 0 ∧ t.tracker.debt = s.tracker.debt - s.cfg.encTicks) ∧
      (s.tracker.debt < s.cfg.encTicks → advance = s.cfg.encTicks - s.tracker.debt ∧ t.tracker.debt = 0) ∧
      t.tracker.position = s.tracker.position + BitVec.ofNat 32 advance ∧
      t.tracker.web = { timing := true, timer := 0, overflows := 0 } ∧
      (s.tracker.web.timing = false → t.tracker.speed = s.tracker.speed) ∧
      (s.tracker.web.timing = true →
        t.tracker.speed = s.cfg.encTicks * 1000000 / max 1 (s.tracker.web.overflows * 65536 + count.toNat)) ∧
      (∀ side : Side,
        ((s.splice.roll side).state = .active ∨ (s.splice.roll side).state = .expiring →
          t.splice.roll side = { s.splice.roll side with remaining := (s.splice.roll side).remaining.map fun m => m - advance }) ∧
        ((s.splice.roll side).state = .empty ∨ (s.splice.roll side).state = .loaded → t.splice.roll side = s.splice.roll side)) ∧
      t = { s with
            tracker :=
              { s.tracker with
                position := t.tracker.position, debt := t.tracker.debt, web := t.tracker.web, speed := t.tracker.speed }
            splice := { s.splice with rollA := t.splice.rollA, rollB := t.splice.rollB, matchTimer := t.splice.matchTimer }
            line := { s.line with driveTimer := t.line.driveTimer } } ∧
      s.speedsFollowed t

/-- A reverse edge adds ENC_TICKS to the debt, saturating at 1,000,000, leaves the position, sets the measured speed to 0 and
stops the capture; a debt above 5,000 latches TRACK_LOST and halts a running line and the panel at the blade, any other latches
nothing (R55, R57, R152). The model's own reading enters here: log 44. -/
def Obligations.ReverseEdgesAreOwed : Prop :=
  ∀ s : State, s.configured = true →
    ∃ t, exec .reverseEdge s = .next t ∧ t.tracker.position = s.tracker.position ∧
      t.tracker.debt = min 1000000 (s.tracker.debt + s.cfg.encTicks) ∧ t.tracker.speed = 0 ∧ t.tracker.web.timing = false ∧
      t.splice.rollA = s.splice.rollA ∧ t.splice.rollB = s.splice.rollB ∧ t.line.vCmd = s.line.vCmd ∧ t.store = s.store ∧
      s.heldRule t ∧ s.speedsFollowed t ∧ t.dose = s.dose ∧
      (5000 < t.tracker.debt →
        t.events.has .trackLost = true ∧
        (s.line.state = .run ∨ s.line.state = .stopping → t.line.state = if s.line.vCmd = 0 then .held else .halting)) ∧
      (t.tracker.debt ≤ 5000 →
        t = { s with
              tracker := { s.tracker with debt := t.tracker.debt, web := t.tracker.web, speed := 0 }
              splice := { s.splice with matchTimer := t.splice.matchTimer }
              line := { s.line with driveTimer := t.line.driveTimer } })

/-- The capture timer's overflow raises the overflow count; the fourth stops the capture with a measured speed of 0; so for the
web encoder, and for the surface encoder where the unwind is fitted (R57, R58). A surface encoder edge, judged by the forward
sequence (0,0), (1,0), (1,1), (0,1), drives the surface capture as a web edge drives the web's, and neither position nor debt; a
change of both signals, or at a station without the unwind, does nothing (R53, R58). -/
def Obligations.CapturesOverflowAndTheSurfaceIsMeasured : Prop :=
  (∀ s : State, s.configured = true →
     (s.tracker.web.timing = true →
       ∃ t, exec (.captureTimerOverflow .web) s = .next t ∧
         (s.tracker.web.overflows < 3 →
           t.tracker.web = { timing := true, timer := 0, overflows := s.tracker.web.overflows + 1 } ∧
           t.tracker.speed = s.tracker.speed) ∧
         (3 ≤ s.tracker.web.overflows → t.tracker.web.timing = false ∧ t.tracker.speed = 0) ∧
         t = { s with
               tracker := { s.tracker with web := t.tracker.web, speed := t.tracker.speed }
               splice := { s.splice with matchTimer := t.splice.matchTimer }
               line := { s.line with driveTimer := t.line.driveTimer } } ∧
           s.speedsFollowed t) ∧
     (s.cfg.unwind = true → s.tracker.surface.timing = true →
       ∃ t, exec (.captureTimerOverflow .surface) s = .next t ∧
         (s.tracker.surface.overflows < 3 →
           t.tracker.surface = { timing := true, timer := 0, overflows := s.tracker.surface.overflows + 1 } ∧
           t.tracker.surfaceSpeed = s.tracker.surfaceSpeed) ∧
         (3 ≤ s.tracker.surface.overflows → t.tracker.surface.timing = false ∧ t.tracker.surfaceSpeed = 0) ∧
         t = { s with
               tracker := { s.tracker with surface := t.tracker.surface, surfaceSpeed := t.tracker.surfaceSpeed }
               splice := { s.splice with matchTimer := t.splice.matchTimer }
               line := { s.line with driveTimer := t.line.driveTimer } } ∧
           s.speedsFollowed t)) ∧
  (∀ (s : State) (before after : Quad) (count : BitVec 16),
     (s.cfg.unwind = false ∨ before.isEdge after = false → exec (.surfaceEncoderEdge before after count) s = .next s) ∧
     (s.configured = true → s.cfg.unwind = true →
       (∀ x y : Bool, before = ⟨x, y⟩ → after = ⟨!y, x⟩ →
         ∃ t, exec (.surfaceEncoderEdge before after count) s = .next t ∧
           t.tracker.surface = { timing := true, timer := 0, overflows := 0 } ∧
           t.tracker.surfaceSpeed =
             (if s.tracker.surface.timing then
               s.cfg.encTicks * 1000000 / max 1 (s.tracker.surface.overflows * 65536 + count.toNat)
             else s.tracker.surfaceSpeed) ∧
           t = { s with
                 tracker := { s.tracker with surface := t.tracker.surface, surfaceSpeed := t.tracker.surfaceSpeed }
                 splice := { s.splice with matchTimer := t.splice.matchTimer }
                 line := { s.line with driveTimer := t.line.driveTimer } } ∧
             s.speedsFollowed t) ∧
       (∀ x y : Bool, before = ⟨x, y⟩ → after = ⟨y, !x⟩ →
         ∃ t, exec (.surfaceEncoderEdge before after count) s = .next t ∧ t.tracker.surface.timing = false ∧
           t.tracker.surfaceSpeed = 0 ∧
           t = { s with
                 tracker := { s.tracker with surface := t.tracker.surface, surfaceSpeed := t.tracker.surfaceSpeed }
                 splice := { s.splice with matchTimer := t.splice.matchTimer }
                 line := { s.line with driveTimer := t.line.driveTimer } } ∧
             s.speedsFollowed t)))

/-- A mark at the origin creates a panel: numbered by the counter, which advances from 4,294,967,295 to 1; drawn from the plan's
head entry, whose count falls by one and which leaves at 0; or blank, with cause BLANK and the last mark interval, or L_span
without one, as its nominal length, when the plan is empty or the head's pattern id is 0. It enters the list and becomes the
stretch reference; a full list discards it with MAP_FULL, and a list that holds its number without an event, the reference then
being absent; the last created panel is the new one either way (R59, R60, R69, R76, R89 to R91). The inserted PANEL asks for its
lookups, and the next context is settled for it when it is the next panel (R77, R112 to R114, R134, R135). The model's own reading
enters here: logs 10 and 20. -/
def Obligations.OriginMarksCreatePanels : Prop :=
  ∀ s : State, s.boot.phase = .done → s.cfg.markSensor = true → s.cfg.origin = true →
    s.tracker.lastMark ≠ some s.tracker.position →
    ∃ (t : State) (p : Panel), exec .markSensed s = .next t ∧
      p.number = s.plan.counter ∧ t.plan.counter = (if s.plan.counter = 4294967295 then 1 else s.plan.counter + 1) ∧
      t.tracker.lastMark = some s.tracker.position ∧
      (∀ q, s.tracker.lastMark = some q → t.tracker.lastInterval = some (s.tracker.position - q).toNat) ∧
      (s.tracker.lastMark = none → t.tracker.lastInterval = s.tracker.lastInterval) ∧
      (∀ e rest, s.plan.entries = e :: rest → e.pattern ≠ 0 →
        p.pattern = e.pattern ∧ p.planDrawn = true ∧ p.cause = none ∧ p.nominal = none) ∧
      ((s.plan.entries = [] ∨ ∃ e rest, s.plan.entries = e :: rest ∧ e.pattern = 0) →
        p.pattern = 0 ∧ p.planDrawn = false ∧ p.cause = some .blank ∧
        p.nominal = some (t.tracker.lastInterval.getD s.cfg.lSpan)) ∧
      (∀ e rest, s.plan.entries = e :: rest → 1 < e.count → t.plan.entries = { e with count := e.count - 1 } :: rest) ∧
      (∀ e rest, s.plan.entries = e :: rest → e.count = 1 → t.plan.entries = rest) ∧
      (s.plan.entries = [] → t.plan.entries = []) ∧
      t.tracker.position = s.tracker.position ∧ t.tracker.handoffs = s.tracker.handoffs ∧ t.tracker.misses = s.tracker.misses ∧
      t.dose = s.dose ∧ t.splice.counter = s.splice.counter ∧
      (s.map.features.length < 32 →
        t.plan.lastCreated =
          some
            { number := p.number, pattern := p.pattern, planDrawn := p.planDrawn, cause := p.cause
              inserted := decide (s.plan.counter ∉ panelNumbers s.map.features) } ∧
        t.line = s.line ∧ t.link = s.link ∧ t.steam = s.steam ∧ t.splice = s.splice ∧
        (s.plan.counter ∉ panelNumbers s.map.features →
          t.map.features =
            insertFeature { body := .panel p, entry := s.tracker.position, overdue := false, reached := false } s.map.features ∧
          s.settlesPanel t p s.tracker.position ∧
          t.tracker.ref =
            some
              { mark := s.tracker.position, number := p.number, nominal := p.nominal, claimed := true
                rejected := p.cause.isSome }) ∧
        (s.plan.counter ∈ panelNumbers s.map.features →
          t.map = s.map ∧ t.store = s.store ∧ t.seq = s.seq ∧ t.tracker.ref = none ∧
          ∀ e : Event, e ≠ .stretchClamp → t.events.has e = s.events.has e)) ∧
      (32 ≤ s.map.features.length →
        t.events.has .mapFull = true ∧ t.tracker.ref = none ∧ t.store = s.store ∧
        t.map.features.map (fun f => f.entry) = s.map.features.map (fun f => f.entry) ∧
        t.plan.lastCreated.map (fun c => (c.number, c.pattern, c.planDrawn, c.inserted)) =
          some (p.number, p.pattern, p.planDrawn, false) ∧
        (s.line.state = .run ∨ s.line.state = .stopping → t.line.state = if s.line.vCmd = 0 then .held else .halting))

/-- A mark at another station claims the oldest pending handoff, whose PANEL is placed at the mark, CLAIMED, with the miss count
0; with none pending it waits as the newest unclaimed mark, the fifth discarding the oldest with STRAY_MARK; a mark at the last
mark's position is ignored. A claimed PANEL whose number the list holds is discarded without an event, and one that meets a full
list with MAP_FULL, the stretch reference then being absent (R59, R62, R66 to R69, R76). The inserted PANEL asks for its lookups,
and the next context is settled for it when it is the next panel (R77, R112 to R114, R134, R135). -/
def Obligations.MarksClaimTheOldestHandoff : Prop :=
  ∀ s : State, s.boot.phase = .done → s.cfg.markSensor = true → s.cfg.origin = false →
    (s.tracker.lastMark = some s.tracker.position → exec .markSensed s = .next s) ∧
    (s.tracker.lastMark ≠ some s.tracker.position →
      (∀ h rest, s.tracker.handoffs = h :: rest →
        ∃ t : State, exec .markSensed s = .next t ∧ t.tracker.handoffs = rest ∧ t.tracker.misses = 0 ∧
          t.tracker.lastMark = some s.tracker.position ∧ t.tracker.marks = s.tracker.marks ∧
          t.tracker.position = s.tracker.position ∧ t.dose = s.dose ∧
          (s.map.features.length < 32 →
            t.line = s.line ∧ t.link = s.link ∧ t.plan = s.plan ∧ t.steam = s.steam ∧ t.splice = s.splice ∧
            (h.number ∉ panelNumbers s.map.features → ∃ p : Panel,
              t.map.features =
                insertFeature { body := .panel p, entry := s.tracker.position, overdue := false, reached := false }
                  s.map.features ∧
              p.number = h.number ∧ p.pattern = h.pattern ∧ p.nominal = some h.nominal ∧ p.cause = h.cause ∧ p.planDrawn = false ∧
              s.settlesPanel t p s.tracker.position ∧
              t.tracker.ref =
                some { mark := s.tracker.position, number := h.number, nominal := some h.nominal, claimed := true
                       rejected := h.cause.isSome }) ∧
            (h.number ∈ panelNumbers s.map.features →
              t.map = s.map ∧ t.store = s.store ∧ t.seq = s.seq ∧ t.tracker.ref = none ∧
              ∀ e : Event, e ≠ .stretchClamp → t.events.has e = s.events.has e)) ∧
          (32 ≤ s.map.features.length →
            t.events.has .mapFull = true ∧ t.tracker.ref = none ∧ s.planKept t ∧ t.store = s.store ∧
            t.map.features.map (fun f => f.entry) = s.map.features.map (fun f => f.entry))) ∧
      (s.tracker.handoffs = [] → s.tracker.marks.length < 4 →
        exec .markSensed s =
          .next
            { s with
              tracker :=
                { s.tracker with lastMark := some s.tracker.position, marks := s.tracker.marks ++ [s.tracker.position] } }) ∧
      (∀ m rest, s.tracker.handoffs = [] → s.tracker.marks = m :: rest → 4 ≤ s.tracker.marks.length →
        exec .markSensed s =
          .next
            { s with
              tracker := { s.tracker with lastMark := some s.tracker.position, marks := rest ++ [s.tracker.position] }
              events := s.events.set .strayMark }))

/-- The stretch update at a CLAIMED mark p: a mark of the origin, a mark that claims a pending handoff, or a waiting mark that a
handoff takes. With a CLAIMED reference that is not rejected, a splice guard that is absent, at or before the reference's mark or
after p, an L above 0, and 2 M within L to 3 L, s becomes floor((M × 65,536 + floor(L / 2)) / L) clamped to 61,440 to 69,632, with
STRETCH_CLAMP when it was clamped. Otherwise s is held: with no reference, one rejected or SYNTHESIZED, a guard between the marks,
M outside its bounds, and an L that is 0 or not yet known (R60, R62, R63, R70). The inserted PANEL asks for its lookups, and the
next context is settled for it when it is the next panel (R77, R112 to R114, R134, R135). The model's own reading enters here: log
10. -/
def Obligations.StretchFollowsGoodPairsOfMarks : Prop :=
  ∀ (s : State) (c : Instr) (p : Pos), s.map.features.length < 32 →
    (c = .markSensed ∧ s.boot.phase = .done ∧ s.cfg.markSensor = true ∧ s.tracker.lastMark ≠ some s.tracker.position ∧
        p = s.tracker.position ∧ (s.cfg.origin = true ∨ s.tracker.handoffs ≠ []) ∨
      (∃ bytes sender n pattern l cause, c = .handoffPanel bytes ∧ s.hears bytes ⟨sender, .handoffPanel n pattern l cause⟩ ∧
        s.cfg.origin = false ∧ s.source = some sender ∧ (∀ h ∈ s.tracker.handoffs, h.number ≠ n.toNat) ∧
        s.cfg.markSensor = true ∧ s.tracker.marks.head? = some p)) →
    ∃ t, exec c s = .next t ∧
      (∀ r l, s.tracker.ref = some r → r.nominal = some l → r.claimed = true → r.rejected = false → 0 < l →
        (∀ g, s.tracker.guard = some g → 0 ≤ travel r.mark g ∨ travel p g < 0) →
        ∀ m : Nat, travel p r.mark = (m : Int) → l ≤ 2 * m → 2 * m ≤ 3 * l →
          t.tracker.stretch = clamp 61440 69632 ((m * 65536 + l / 2) / l) ∧
          ((m * 65536 + l / 2) / l < 61440 ∨ 69632 < (m * 65536 + l / 2) / l → t.events = s.events.set .stretchClamp) ∧
          (61440 ≤ (m * 65536 + l / 2) / l → (m * 65536 + l / 2) / l ≤ 69632 → t.events = s.events)) ∧
      ((s.tracker.ref = none ∨ ∃ r, s.tracker.ref = some r ∧
          (r.claimed = false ∨ r.rejected = true ∨ r.nominal = none ∨ r.nominal = some 0 ∨
            (∃ g, s.tracker.guard = some g ∧ travel r.mark g < 0 ∧ 0 ≤ travel p g) ∨
            ∃ l, r.nominal = some l ∧ (2 * travel p r.mark < (l : Int) ∨ 3 * (l : Int) < 2 * travel p r.mark))) →
        t.tracker.stretch = s.tracker.stretch ∧ t.events = s.events) ∧
      (t.map = s.map ∧ t.store = s.store ∧ t.seq = s.seq ∨ ∃ q : Panel,
        t.map.features = insertFeature { body := .panel q, entry := p, overdue := false, reached := false } s.map.features ∧
        s.settlesPanel t q p)

/-- A PANEL handoff from the source is claimed by the oldest waiting mark, whose position it takes, or waits as the newest pending
handoff; the fifth first has the oldest placed SYNTHESIZED, as at its window's end, with its miss; without a mark sensor its PANEL
is placed at the web position at once. A PANEL whose number the list holds is discarded without an event, and one that meets a
full list with MAP_FULL. From another sender, at the origin, or with a number that is pending already the handoff is ignored (R61,
R63, R64, R66 to R69, R76). The inserted PANEL asks for its lookups, and the next context is settled for it when it is the next
panel (R77, R112 to R114, R134, R135). -/
def Obligations.PanelHandoffsArePairedWithMarks : Prop :=
  ∀ (s : State) (bytes : List Byte) (sender : BitVec 4) (n : BitVec 32) (pat : BitVec 16) (l : BitVec 32) (c : Byte),
    s.hears bytes ⟨sender, .handoffPanel n pat l c⟩ →
    (s.cfg.origin = true ∨ s.source ≠ some sender ∨ (∃ h ∈ s.tracker.handoffs, h.number = n.toNat) →
      exec (.handoffPanel bytes) s = .next s.heard) ∧
    (s.cfg.origin = false → s.source = some sender → (∀ h ∈ s.tracker.handoffs, h.number ≠ n.toNat) →
      (s.cfg.markSensor = true → s.tracker.marks = [] → s.tracker.handoffs.length < 4 →
        exec (.handoffPanel bytes) s =
          .next
            { s.heard with
              tracker :=
                { s.tracker with
                  handoffs :=
                    s.tracker.handoffs ++
                      [{ number := n.toNat, pattern := pat.toNat, nominal := l.toNat, cause := causeOfCode c
                         arrival := s.tracker.position }] } }) ∧
      (∀ h rest, s.cfg.markSensor = true → s.tracker.marks = [] → s.tracker.handoffs = h :: rest →
        4 ≤ s.tracker.handoffs.length →
        ∃ t, exec (.handoffPanel bytes) s = .next t ∧
          t.tracker.handoffs =
            rest ++
              [{ number := n.toNat, pattern := pat.toNat, nominal := l.toNat, cause := causeOfCode c
                 arrival := s.tracker.position }] ∧
          t.tracker.misses = min 255 (s.tracker.misses + 1) ∧ t.events.has .markMissed = true ∧
          (1 ≤ s.tracker.misses → t.events.has .trackLost = true) ∧ t.tracker.stretch = s.tracker.stretch ∧
          t.tracker.marks = [] ∧ t.line.vCmd = s.line.vCmd ∧ s.planKept t ∧ t.dose = s.dose ∧
          (s.map.features.length < 32 → s.tracker.misses = 0 →
            t.events = s.events.set .markMissed ∧ t.line = s.line ∧ t.plan = s.plan ∧
            (h.number ∉ panelNumbers s.map.features → ∃ p : Panel,
              t.map.features =
                insertFeature { body := .panel p, entry := h.arrival, overdue := false, reached := false } s.map.features ∧
              p.number = h.number ∧ p.pattern = h.pattern ∧ p.nominal = some h.nominal ∧ p.cause = h.cause ∧ p.planDrawn = false ∧
              s.settlesPanel t p h.arrival ∧
              t.tracker.ref =
                some { mark := h.arrival, number := h.number, nominal := some h.nominal, claimed := false
                       rejected := h.cause.isSome }) ∧
            (h.number ∈ panelNumbers s.map.features →
              t.map = s.map ∧ t.store = s.store ∧ t.seq = s.seq ∧ t.tracker.ref = none))) ∧
      (∀ entry : Pos, (s.cfg.markSensor = true ∧ s.tracker.marks.head? = some entry ∨
            s.cfg.markSensor = false ∧ entry = s.tracker.position) →
        ∃ t : State, exec (.handoffPanel bytes) s = .next t ∧ t.tracker.handoffs = s.tracker.handoffs ∧
          (s.cfg.markSensor = true → t.tracker.marks = s.tracker.marks.tail ∧ t.tracker.misses = 0) ∧ t.dose = s.dose ∧
          (s.map.features.length < 32 →
            t.line = s.line ∧ t.plan = s.plan ∧ t.steam = s.steam ∧ t.splice = s.splice ∧
            (s.cfg.markSensor = false → t.tracker = { s.tracker with ref := t.tracker.ref } ∧ t.events = s.events) ∧
            (n.toNat ∉ panelNumbers s.map.features → ∃ p : Panel,
              t.map.features = insertFeature { body := .panel p, entry := entry, overdue := false, reached := false } s.map.features ∧
              p.number = n.toNat ∧ p.pattern = pat.toNat ∧ p.nominal = some l.toNat ∧ p.cause = causeOfCode c ∧ p.planDrawn = false ∧
              s.settlesPanel t p entry ∧ (s.cfg.markSensor = false → t.tracker.ref = s.tracker.ref) ∧
              (s.cfg.markSensor = true →
                t.tracker.ref =
                  some { mark := entry, number := n.toNat, nominal := some l.toNat, claimed := true
                         rejected := (causeOfCode c).isSome })) ∧
            (n.toNat ∈ panelNumbers s.map.features →
              t.map = s.map ∧ t.store = s.store ∧ t.seq = s.seq ∧ t.tracker.ref = none ∧
              ∀ e : Event, e ≠ .stretchClamp → t.events.has e = s.events.has e)) ∧
          (32 ≤ s.map.features.length →
            t.events.has .mapFull = true ∧ t.tracker.ref = none ∧ s.planKept t ∧ t.store = s.store ∧
            t.map.features.map (fun f => f.entry) = s.map.features.map (fun f => f.entry))))

/-- A pending handoff whose window runs out is placed SYNTHESIZED at its arrival position: the misses rise by one, saturating at
255, MARK_MISSED is latched, TRACK_LOST with the second miss, and s is not updated; a PANEL whose number the list holds is
discarded without an event of its own, and one that meets a full list with MAP_FULL, the stretch reference then being absent. An
unclaimed mark whose window runs out is discarded with STRAY_MARK; inside their windows both stay (R64, R65, R67, R69, R76). The
inserted PANEL asks for its lookups, and the next context is settled for it when it is the next panel (R77, R112 to R114, R134,
R135). -/
def Obligations.ClaimWindowsExpire : Prop :=
  ∀ s : State,
    (∀ h rest, s.tracker.handoffs = h :: rest →
      (travel s.tracker.position h.arrival < (s.cfg.claimWindow : Int) → exec .handoffWindowExpiry s = .next s) ∧
      ((s.cfg.claimWindow : Int) ≤ travel s.tracker.position h.arrival →
        ∃ t : State, exec .handoffWindowExpiry s = .next t ∧ t.tracker.handoffs = rest ∧
          t.tracker.misses = min 255 (s.tracker.misses + 1) ∧ t.events.has .markMissed = true ∧
          (1 ≤ s.tracker.misses → t.events.has .trackLost = true) ∧
          t.tracker.stretch = s.tracker.stretch ∧ t.tracker.marks = s.tracker.marks ∧ t.line.vCmd = s.line.vCmd ∧
          s.planKept t ∧ t.dose = s.dose ∧
          (s.map.features.length < 32 → h.number ∉ panelNumbers s.map.features → ∃ p : Panel,
            p.number = h.number ∧ p.pattern = h.pattern ∧ p.nominal = some h.nominal ∧ p.cause = h.cause ∧ p.planDrawn = false ∧
            t.map.features.map (fun f => f.entry) =
              (insertFeature { body := .panel p, entry := h.arrival, overdue := false, reached := false } s.map.features).map
                (fun f => f.entry) ∧
            (t.panel? h.number = some p ∨
              h.cause = none ∧ 1 ≤ s.tracker.misses ∧ t.panel? h.number = some { p with cause := some .halted }) ∧
            t.tracker.ref.map (fun r => (r.mark, r.number, r.nominal, r.claimed)) =
              some (h.arrival, h.number, some h.nominal, false) ∧
            (s.tracker.misses = 0 →
              t.map.features =
                insertFeature { body := .panel p, entry := h.arrival, overdue := false, reached := false } s.map.features ∧
              s.settlesPanel t p h.arrival ∧ t.tracker.ref.map (fun r => r.rejected) = some h.cause.isSome ∧
              t.events = s.events.set .markMissed ∧ t.line = s.line ∧ t.plan = s.plan)) ∧
          (s.map.features.length < 32 → h.number ∈ panelNumbers s.map.features →
            t.map.features.map (fun f => f.entry) = s.map.features.map (fun f => f.entry) ∧ t.tracker.ref = none ∧ t.store = s.store ∧
            (s.tracker.misses = 0 → t.events = s.events.set .markMissed ∧ t.map = s.map ∧ t.seq = s.seq)) ∧
          (32 ≤ s.map.features.length →
            t.map.features.map (fun f => f.entry) = s.map.features.map (fun f => f.entry) ∧ t.tracker.ref = none ∧ t.store = s.store ∧
            t.events.has .mapFull = true))) ∧
    (∀ m rest, s.tracker.marks = m :: rest →
      (travel s.tracker.position m < (s.cfg.claimWindow : Int) → exec .markWindowExpiry s = .next s) ∧
      ((s.cfg.claimWindow : Int) ≤ travel s.tracker.position m →
        exec .markWindowExpiry s =
          .next { s with tracker := { s.tracker with marks := rest }, events := s.events.set .strayMark }))

/-! ### Web Map, Plan Queue and handoff (R74 to R95) -/

/-- A SPLICE handoff from the source enters the list at the web position and sets the splice guard there; a full list discards it
with MAP_FULL, the guard stays, and the stretch reference becomes absent. A REJECT from the source records its cause on the PANEL
of the list, unless it holds one, else on the pending handoff, else goes on unchanged down the line; at the last station, or
without room, LATE_REJECT is latched. From another sender, at the origin, and a REJECT of cause 0, are ignored (R69, R76, R78, R83
to R86). -/
def Obligations.UpstreamSplicesAndRejectsAreTaken : Prop :=
  ∀ (s : State) (bytes : List Byte) (sender : BitVec 4) (n : BitVec 32),
    (s.hears bytes ⟨sender, .handoffSplice n⟩ →
      (s.cfg.origin = true ∨ s.source ≠ some sender → exec (.handoffSplice bytes) s = .next s.heard) ∧
      (s.cfg.origin = false → s.source = some sender →
        (s.map.features.length < 32 →
          exec (.handoffSplice bytes) s =
            .next
              { s.heard with
                map :=
                  { s.map with
                    features :=
                      insertFeature
                        { body := .splice n.toNat false, entry := s.tracker.position, overdue := false, reached := false }
                        s.map.features }
                tracker := { s.tracker with guard := some s.tracker.position } }) ∧
        (32 ≤ s.map.features.length →
          ∃ t, exec (.handoffSplice bytes) s = .next t ∧ t.events.has .mapFull = true ∧ t.tracker.guard = s.tracker.guard ∧
            t.tracker.ref = none ∧ t.map.features.length = s.map.features.length))) ∧
    ∀ c : Byte, s.hears bytes ⟨sender, .handoffReject n c⟩ →
      (s.cfg.origin = true ∨ s.source ≠ some sender ∨ c = 0 → exec (.handoffReject bytes) s = .next s.heard) ∧
      (s.cfg.origin = false → s.source = some sender → ∀ k : RejectCause, c.toNat = k.code →
        (∀ before f after p, s.map.features = before ++ f :: after → n.toNat ∉ panelNumbers before → f.body = .panel p →
          p.number = n.toNat →
          (p.cause ≠ none → exec (.handoffReject bytes) s = .next s.heard) ∧
          (p.cause = none →
            exec (.handoffReject bytes) s =
              .next
                { s.heard with
                  map := { s.map with features := before ++ { f with body := .panel { p with cause := some k } } :: after }
                  tracker :=
                    { s.tracker with
                      ref := s.tracker.ref.map fun r => if r.number = n.toNat then { r with rejected := true } else r } })) ∧
        (n.toNat ∉ panelNumbers s.map.features →
          (∀ before h after, s.tracker.handoffs = before ++ h :: after → (∀ g ∈ before, g.number ≠ n.toNat) → h.number = n.toNat →
            exec (.handoffReject bytes) s =
              .next
                { s.heard with
                  tracker :=
                    { s.tracker with
                      handoffs := before ++ (if h.cause = none then { h with cause := some k } else h) :: after } }) ∧
          ((∀ g ∈ s.tracker.handoffs, g.number ≠ n.toNat) →
            (s.isLast = true ∨ 8 ≤ s.link.handoffFifo.length ∨ s.events.has .duplicateIndex = true →
              exec (.handoffReject bytes) s = .next { s.heard with events := s.events.set .lateReject }) ∧
            (s.isLast = false → s.link.handoffFifo.length < 8 → s.events.has .duplicateIndex = false →
              exec (.handoffReject bytes) s =
                .next
                  { s.heard with
                    link :=
                      { s.heard.link with
                        handoffFifo := s.link.handoffFifo ++ [{ id := s.link.serial, payload := .handoffReject n c }]
                        serial := s.link.serial + 1 } }))))

/-- A PLAN is refused NOT_FITTED away from the origin, OUT_OF_RANGE for an id above 4,095 or a count of 0, PLAN_FULL at 16
entries, and joins the tail of the queue otherwise (R88). A splice at the origin's entry condemns the last created panel, SPLICED:
in the list, where it has no cause yet, or by a notice when it is not there; and a plan-drawn panel's count goes back to the head
entry of its pattern, or, with room, to a new head entry of count 1. A panel that has carried a cause gives nothing back, so that
a second splice through it does not give back twice, nor does one that was discarded. A notice that finds no room is dropped with
LATE_REJECT, and the count goes back all the same (log 19). That a panel condemned by a notice since it left the list, be it a
dropped one, has carried a cause and gives nothing back, and that SPLICED stands on the last created panel even where its notice
is dropped, is the model's choice, log 44. With no last created panel nothing is done (R78, R86, R89, R92, R93; at the last
station nothing is given back either). The model's own reading enters here: logs 19, 28, 30 and 44. -/
def Obligations.PlansAreMadeAndGivenBack : Prop :=
  (∀ (s : State) (bytes : List Byte) (sender : BitVec 4) (targets pattern count : BitVec 16),
     s.hears bytes ⟨sender, .plan targets pattern count⟩ →
     (s.cfg.origin = false →
       exec (.plan bytes) s = .next { s.heard with events := { s.events with refusedKind := 0x14, refusalCause := 11 } }) ∧
     (s.cfg.origin = true →
       (4095 < pattern.toNat ∨ count = 0 →
         exec (.plan bytes) s = .next { s.heard with events := { s.events with refusedKind := 0x14, refusalCause := 4 } }) ∧
       (pattern.toNat ≤ 4095 → count ≠ 0 →
         (16 ≤ s.plan.entries.length →
           exec (.plan bytes) s = .next { s.heard with events := { s.events with refusedKind := 0x14, refusalCause := 3 } }) ∧
         (s.plan.entries.length < 16 →
           exec (.plan bytes) s =
             .next
               { s.heard with
                 plan := { s.plan with entries := s.plan.entries ++ [{ pattern := pattern.toNat, count := count.toNat }] } })))) ∧
  (∀ (s : State) (before after : List Feature) (f : Feature) (n : Nat), s.cfg.origin = true →
     s.map.features = before ++ f :: after → f.body = .splice n false → 0 ≤ travel s.tracker.position f.entry →
     (∀ g ∈ before, ∀ m, g.body = .splice m false → travel s.tracker.position g.entry < 0) →
     ∃ t, exec .spliceReachesEntry s = .next t ∧
       (s.plan.lastCreated = none ∨ (∃ c p, s.plan.lastCreated = some c ∧ s.panel? c.number = some p ∧ p.cause ≠ none) →
         t = { s with map := { s.map with features := before ++ { f with body := .splice n true } :: after } }) ∧
       (∀ c, s.plan.lastCreated = some c →
         (∀ p, s.panel? c.number = some p → p.cause = none →
           t.panel? c.number = some { p with cause := some .spliced } ∧ t.link = s.link ∧ t.events = s.events ∧
           t.map.features.map (fun g => g.entry) = s.map.features.map (fun g => g.entry)) ∧
         (s.panel? c.number = none →
           t.map = { s.map with features := before ++ { f with body := .splice n true } :: after } ∧
           (s.isLast = true → t.link = s.link ∧ t.events = s.events.set .lateReject ∧ t.plan = s.plan) ∧
           (s.isLast = false → s.link.handoffFifo.length < 8 → s.events.has .duplicateIndex = false →
             t.events = s.events ∧
             t.link =
               { s.link with
                 handoffFifo := s.link.handoffFifo ++ [{ id := s.link.serial, payload := .handoffReject (BitVec.ofNat 32 c.number) 2 }]
                 serial := s.link.serial + 1 }) ∧
           (s.isLast = false → 8 ≤ s.link.handoffFifo.length ∨ s.events.has .duplicateIndex = true →
             t.link = s.link ∧ t.events = s.events.set .lateReject)) ∧
         ((∃ p, s.panel? c.number = some p ∧ p.cause = none) ∨ s.panel? c.number = none ∧ s.isLast = false →
           t.plan.lastCreated = some { c with cause := some (c.cause.getD .spliced) } ∧ t.plan.counter = s.plan.counter ∧
           (c.planDrawn = false ∨ c.inserted = false ∨ s.panel? c.number = none ∧ c.cause ≠ none → t.plan.entries = s.plan.entries) ∧
           (c.planDrawn = true → c.inserted = true → ((∃ p, s.panel? c.number = some p) ∨ c.cause = none) →
             (∀ e rest, s.plan.entries = e :: rest → e.pattern = c.pattern → e.count < 65535 →
               t.plan.entries = { e with count := e.count + 1 } :: rest) ∧
             ((∀ e rest, s.plan.entries = e :: rest → e.pattern ≠ c.pattern ∨ 65535 ≤ e.count) →
               (s.plan.entries.length < 16 → t.plan.entries = { pattern := c.pattern, count := 1 } :: s.plan.entries) ∧
               (16 ≤ s.plan.entries.length → t.plan.entries = s.plan.entries))))) ∧
       t.tracker.position = s.tracker.position ∧ t.line = s.line ∧ t.store = s.store ∧ t.seq = s.seq ∧ t.dose = s.dose ∧
       t.splice = s.splice)

/-- A feature at the exit of a station without the blade, with its fields filled, leaves the list as a HANDOFF of its fields when
the FIFO has room and no OVERDUE feature stands before it; else it becomes OVERDUE with HANDOFF_BACKLOG; at the last station it
leaves without a HANDOFF and a fitted gate opens for a PANEL with a cause, closes for one without, and stays for a SPLICE; with a
pending field it waits (R77, R79, R80, R82). The model's own reading enters here: log 30. -/
def Obligations.ExitsHandOnOrMoveTheGate : Prop :=
  ∀ (s : State) (before after : List Feature) (f : Feature), s.cfg.blade = false → s.map.features = before ++ f :: after →
    (∀ g ∈ before, g.reached = true ∧ g.overdue = true) → (∀ g ∈ after, g.reached = false ∧ g.overdue = false) →
    f.reached = false → f.overdue = false →
    (travel s.tracker.position f.entry < (s.cfg.lSpan : Int) →
      (∀ g ∈ after, travel s.tracker.position g.entry < (s.cfg.lSpan : Int)) → exec .featureAtExit s = .next s) ∧
    ((s.cfg.lSpan : Int) ≤ travel s.tracker.position f.entry →
      (f.hasPending = true →
        exec .featureAtExit s =
          .next { s with map := { s.map with features := before ++ { f with reached := true } :: after } }) ∧
      (f.hasPending = false → s.isLast = false →
        (before = [] → s.link.handoffFifo.length < 8 → s.events.has .duplicateIndex = false →
          ∃ t payload, exec .featureAtExit s = .next t ∧
            (∀ p, f.body = .panel p → payload =
              .handoffPanel (BitVec.ofNat 32 p.number) (BitVec.ofNat 16 p.pattern) (BitVec.ofNat 32 (p.nominal.getD 0))
                (BitVec.ofNat 8 (causeCode p.cause))) ∧
            (∀ n a, f.body = .splice n a → payload = .handoffSplice (BitVec.ofNat 32 n)) ∧
            t = { s with
                  map := { s.map with features := after }
                  link :=
                    { s.link with
                      handoffFifo := s.link.handoffFifo ++ [{ id := s.link.serial, payload := payload }]
                      serial := s.link.serial + 1 } }) ∧
        (before ≠ [] ∨ 8 ≤ s.link.handoffFifo.length ∨ s.events.has .duplicateIndex = true →
          ∃ t, exec .featureAtExit s = .next t ∧ t.events.has .handoffBacklog = true ∧
            t.map.features.map (fun g => (g.entry, g.overdue)) =
              (before ++ { f with overdue := true } :: after).map (fun g => (g.entry, g.overdue)) ∧
            (s.line.state = .run ∨ s.line.state = .stopping → t.line.state = if s.line.vCmd = 0 then .held else .halting) ∧
            t.tracker.position = s.tracker.position ∧ t.line.vCmd = s.line.vCmd ∧ t.store = s.store ∧ s.planKept t ∧
            t.dose = s.dose)) ∧
      (f.hasPending = false → s.isLast = true → before = [] →
        ∃ t, exec .featureAtExit s = .next t ∧ t.map.features = after ∧ t = { s with map := t.map } ∧
          (s.cfg.rejectGate = false → t.map.gateOpen = s.map.gateOpen) ∧
          (s.cfg.rejectGate = true → ∀ p, f.body = .panel p → t.map.gateOpen = p.cause.isSome) ∧
          (∀ n a, f.body = .splice n a → t.map.gateOpen = s.map.gateOpen)))

/-- A PANEL that reaches the blade leaves as a HANDOFF with its output length and becomes current with the next context. In IDLE,
TAIL and RUNOUT with no clear position, a DELIVERED copy is set up at its entry position plus B_dist and the Sequencer enters
FOLDING, or TAIL without a strike; an OUTSTANDING one waits in LEAD_IN. In LEAD_IN and FOLDING the panel before it is TRUNCATED.
With a clear position the PANEL is rejected SPLICED and passes in RUNOUT. The next context is settled anew for the PANELs behind:
empty, FLAT, OUTSTANDING for an insertion lookup that is still to come, or OUTSTANDING with a late copy asked for (R79, R86, R122,
R124, R132, R135, R137, R138, R140, R141). A SPLICE that reaches the blade leaves as a HANDOFF and sets the clear position to its
entry position plus B_dist plus SPLICE_CLEAR, absent when that is passed already; a panel in LEAD_IN, FOLDING or TAIL, gone from
the list, is rejected SPLICED by a notice, which stands before or behind the HANDOFF, and ends in RUNOUT; that the origin's last
created panel keeps the cause of that notice is the model's choice, log 44; IDLE and RUNOUT stay (R79, R86, R137, R150, R151). The
model's own reading enters here: logs 11, 38, 39 and 44. -/
def Obligations.FeaturesReachTheBlade : Prop :=
  (∀ (s : State) (f : Feature) (after : List Feature) (p : Panel) (c : Context), s.cfg.blade = true → s.map.features = f :: after →
     f.body = .panel p → f.reached = false → f.overdue = false → f.hasPending = false →
     (∀ g ∈ after, g.reached = false ∧ g.overdue = false) → (s.cfg.lSpan : Int) ≤ travel s.tracker.position f.entry →
     s.isLast = false → s.link.handoffFifo.length < 6 → s.events.has .duplicateIndex = false → p.number ∉ panelNumbers after →
     (∀ d, s.seq.current = some d → d.panel ∉ panelNumbers after) → s.seq.next = some c → c.panel = p.number →
     ∃ t handoff, exec .featureAtExit s = .next t ∧
       handoff =
         .handoffPanel (BitVec.ofNat 32 p.number) (BitVec.ofNat 16 p.pattern) (BitVec.ofNat 32 ((p.outLen.get?).getD 0))
           (BitVec.ofNat 8 (causeCode p.cause)) ∧
       t.map = { s.map with features := after } ∧ s.takesCurrent t c after ∧
       (s.seq.state = .idle ∨ s.seq.state = .tail ∨ s.seq.state = .runout →
         (s.seq.clearPos = none →
           t.link =
             { s.link with
               handoffFifo := s.link.handoffFifo ++ [{ id := s.link.serial, payload := handoff }]
               serial := s.link.serial + 1 }) ∧
         (s.seq.clearPos ≠ none →
           t.link =
             { s.link with
               handoffFifo :=
                 s.link.handoffFifo ++
                   [{ id := s.link.serial, payload := handoff },
                    { id := s.link.serial + 1, payload := .handoffReject (BitVec.ofNat 32 p.number) 2 }]
               serial := s.link.serial + 2 })) ∧
       (s.seq.state = .leadIn ∨ s.seq.state = .folding → s.seq.clearPos = none → ∀ d, s.seq.current = some d →
         t.link =
           { s.link with
             handoffFifo :=
               s.link.handoffFifo ++
                 [{ id := s.link.serial, payload := handoff },
                  { id := s.link.serial + 1, payload := .handoffReject (BitVec.ofNat 32 d.panel) 4 }]
             serial := s.link.serial + 2 }) ∧
       t = { s with map := t.map, seq := t.seq, link := t.link, store := t.store, plan := t.plan } ∧ s.planKept t ∧
       (s.cfg.origin = false → t.plan = s.plan)) ∧
  (∀ (s : State) (f : Feature) (after : List Feature) (n : Nat) (a : Bool), s.cfg.blade = true → s.map.features = f :: after →
     f.body = .splice n a → f.reached = false → f.overdue = false → (∀ g ∈ after, g.reached = false ∧ g.overdue = false) →
     (s.cfg.lSpan : Int) ≤ travel s.tracker.position f.entry → s.isLast = false → s.link.handoffFifo.length < 7 →
     s.events.has .duplicateIndex = false → (∀ d, s.seq.current = some d → d.panel ∉ panelNumbers after) →
     ∃ t, exec .featureAtExit s = .next t ∧ t.map = { s.map with features := after } ∧ s.setsClear t f.entry ∧
       (s.seq.state = .idle ∨ s.seq.state = .runout →
         t.link =
           { s.link with
             handoffFifo := s.link.handoffFifo ++ [{ id := s.link.serial, payload := .handoffSplice (BitVec.ofNat 32 n) }]
             serial := s.link.serial + 1 } ∧
         t = { s with map := t.map, link := t.link, seq := { s.seq with clearPos := t.seq.clearPos } }) ∧
       (s.seq.state = .leadIn ∨ s.seq.state = .folding ∨ s.seq.state = .tail → ∀ d, s.seq.current = some d →
         (∃ first second : Payload,
            (first = .handoffSplice (BitVec.ofNat 32 n) ∧ second = .handoffReject (BitVec.ofNat 32 d.panel) 2 ∨
              first = .handoffReject (BitVec.ofNat 32 d.panel) 2 ∧ second = .handoffSplice (BitVec.ofNat 32 n)) ∧
            t.link =
              { s.link with
                handoffFifo :=
                  s.link.handoffFifo ++ [{ id := s.link.serial, payload := first }, { id := s.link.serial + 1, payload := second }]
                serial := s.link.serial + 2 }) ∧
         t.plan = s.planAfter d.panel .spliced ∧
         t = { s with map := t.map, link := t.link, plan := t.plan, free := t.free
                      seq := { s.seq with clearPos := t.seq.clearPos, state := .runout, play := none } }))

/-- A feature that reaches the blade with a field pending, or behind one that waits for such a field, stays in the list, reached,
and the Sequencer acts on it all the same: the PANEL becomes current, in LEAD_IN, in RUNOUT under a clear position, or in play;
the panel before it is TRUNCATED, on its record where it waits in the list, else by a notice; under a clear position the PANEL's
own record takes SPLICED. A SPLICE that waits sets the clear position, and the panel in LEAD_IN, FOLDING or TAIL takes SPLICED in
the same way (R77, R132, R135, R137, R138, R140, R141, R150). At a blade station that is the last of the line a feature that
reaches the blade leaves without a HANDOFF: a fitted gate opens for a PANEL with a cause and closes for one without, and stays for
a SPLICE. The Sequencer acts as at any station, and the causes it sets on panels that have left latch LATE_REJECT, without a
notice (R82, R86, R137, R138, R140, R141, R150). A feature that reaches the blade without room in the handoff FIFO, or behind an
OVERDUE one, stays in the list, OVERDUE, with HANDOFF_BACKLOG latched, which halts the line; the Sequencer acts on it all the
same. The panel before a PANEL is TRUNCATED, or, where the line enters HELD at once, HALTED; under a clear position the PANEL's
own record takes SPLICED; a SPLICE rejects the panel in LEAD_IN, FOLDING or TAIL SPLICED (R37, R80, R132, R137, R138, R140, R141,
R150, R152). The model's own reading enters here: logs 11, 38 and 39. -/
def Obligations.FeaturesStayOrEndAtTheBlade : Prop :=
  (∀ (s : State) (before after : List Feature) (f : Feature), s.cfg.blade = true → s.map.features = before ++ f :: after →
     (∀ g ∈ before, g.reached = true ∧ (g.overdue = true ∨ g.hasPending = true)) → f.reached = false → f.overdue = false →
     (f.hasPending = true ∨ ∃ g ∈ before, g.overdue = false) → (∀ g ∈ after, g.reached = false ∧ g.overdue = false) →
     (s.cfg.lSpan : Int) ≤ travel s.tracker.position f.entry →
     ∃ t, exec .featureAtExit s = .next t ∧ t.listIs (before ++ { f with reached := true } :: after) ∧
       t.map.gateOpen = s.map.gateOpen ∧ s.planKept t ∧
       t = { s with map := t.map, seq := t.seq, link := { s.link with handoffFifo := t.link.handoffFifo, serial := t.link.serial }
                    events := t.events, plan := t.plan, store := t.store, free := t.free
                    tracker := { s.tracker with ref := t.tracker.ref } } ∧
       (∀ (p : Panel) (c : Context), f.body = .panel p → s.seq.next = some c → c.panel = p.number →
         s.takesCurrent t c after ∧
         (s.seq.state = .idle ∨ s.seq.state = .tail ∨ s.seq.state = .runout →
           (s.seq.clearPos = none →
             t.map.features = before ++ { f with reached := true } :: after ∧ t.link = s.link ∧ t.events = s.events ∧ t.plan = s.plan) ∧
           (s.seq.clearPos ≠ none → s.panel? p.number = some p →
             t.panel? p.number = some { p with cause := some (p.cause.getD .spliced) } ∧ t.link = s.link ∧ t.events = s.events)) ∧
         (s.seq.state = .leadIn ∨ s.seq.state = .folding → s.seq.clearPos = none → ∀ d, s.seq.current = some d →
           s.causeFromBlade t d.panel .truncated)) ∧
       (∀ (n : Nat) (a : Bool), f.body = .splice n a →
         s.setsClear t f.entry ∧ t.store = s.store ∧
         (s.seq.state = .idle ∨ s.seq.state = .runout →
           t.map.features = before ++ { f with reached := true } :: after ∧ t.link = s.link ∧ t.events = s.events ∧
           t.seq = { s.seq with clearPos := t.seq.clearPos }) ∧
         (s.seq.state = .leadIn ∨ s.seq.state = .folding ∨ s.seq.state = .tail →
           t.seq = { s.seq with clearPos := t.seq.clearPos, state := .runout, play := none } ∧
           ∀ d, s.seq.current = some d → s.causeFromBlade t d.panel .spliced))) ∧
  (∀ (s : State) (f : Feature) (after : List Feature), s.cfg.blade = true → s.isLast = true → s.map.features = f :: after →
     f.reached = false → f.overdue = false → f.hasPending = false → (∀ g ∈ after, g.reached = false ∧ g.overdue = false) →
     (s.cfg.lSpan : Int) ≤ travel s.tracker.position f.entry → (∀ d, s.seq.current = some d → d.panel ∉ panelNumbers after) →
     ∃ t, exec .featureAtExit s = .next t ∧ t.map.features = after ∧
       t = { s with map := t.map, seq := t.seq, events := t.events, store := t.store, free := t.free } ∧
       (s.cfg.rejectGate = false → t.map.gateOpen = s.map.gateOpen) ∧
       (∀ (p : Panel) (c : Context), f.body = .panel p → s.seq.next = some c → c.panel = p.number → p.number ∉ panelNumbers after →
         s.takesCurrent t c after ∧ (s.cfg.rejectGate = true → t.map.gateOpen = p.cause.isSome) ∧
         (s.seq.state = .idle ∨ s.seq.state = .tail ∨ s.seq.state = .runout →
           t.events = if s.seq.clearPos = none then s.events else s.events.set .lateReject) ∧
         (s.seq.state = .leadIn ∨ s.seq.state = .folding → (∃ d, s.seq.current = some d) → t.events = s.events.set .lateReject)) ∧
       (∀ (n : Nat) (a : Bool), f.body = .splice n a →
         s.setsClear t f.entry ∧ t.map.gateOpen = s.map.gateOpen ∧ t.store = s.store ∧
         (s.seq.state = .idle ∨ s.seq.state = .runout → t.events = s.events ∧ t.seq = { s.seq with clearPos := t.seq.clearPos }) ∧
         (s.seq.state = .leadIn ∨ s.seq.state = .folding ∨ s.seq.state = .tail →
           t.seq = { s.seq with clearPos := t.seq.clearPos, state := .runout, play := none } ∧
           ((∃ d, s.seq.current = some d) → t.events = s.events.set .lateReject)))) ∧
  (∀ (s : State) (before after : List Feature) (f : Feature), s.cfg.blade = true → s.isLast = false →
     s.map.features = before ++ f :: after → (∀ g ∈ before, g.reached = true ∧ g.overdue = true) →
     f.reached = false → f.overdue = false → f.hasPending = false → (∀ g ∈ after, g.reached = false ∧ g.overdue = false) →
     (s.cfg.lSpan : Int) ≤ travel s.tracker.position f.entry →
     before ≠ [] ∨ 8 ≤ s.link.handoffFifo.length ∨ s.events.has .duplicateIndex = true →
     ∃ t, exec .featureAtExit s = .next t ∧ t.events.has .handoffBacklog = true ∧
       t.listIs (before ++ { f with reached := true, overdue := true } :: after) ∧ t.map.gateOpen = s.map.gateOpen ∧
       (s.line.state = .run ∨ s.line.state = .stopping → t.line.state = if s.line.vCmd = 0 then .held else .halting) ∧
       (s.line.state = .standby → t.line.state = .held) ∧ t.line.vCmd = s.line.vCmd ∧ s.planKept t ∧ t.dose = s.dose ∧
       t.tracker = { s.tracker with ref := t.tracker.ref } ∧
       (∀ (p : Panel) (c : Context), f.body = .panel p → s.seq.next = some c → c.panel = p.number →
         s.takesCurrent t c after ∧
         (s.seq.state = .idle ∨ s.seq.state = .tail ∨ s.seq.state = .runout →
           t.link.handoffFifo = s.link.handoffFifo ∧
           (s.seq.clearPos = none → s.panel? p.number = some p → t.panel? p.number = some p) ∧
           (s.seq.clearPos ≠ none → s.panel? p.number = some p →
             t.panel? p.number = some { p with cause := some (p.cause.getD .spliced) })) ∧
         (s.seq.state = .leadIn ∨ s.seq.state = .folding → s.seq.clearPos = none → ∀ d, s.seq.current = some d →
           (s.haltIsHeld → s.causeFromBlade t d.panel .halted) ∧ (¬ s.haltIsHeld → s.causeFromBlade t d.panel .truncated))) ∧
       (∀ (n : Nat) (a : Bool), f.body = .splice n a →
         s.setsClear t f.entry ∧ t.store = s.store ∧
         (s.seq.state = .idle ∨ s.seq.state = .runout →
           t.seq = { s.seq with clearPos := t.seq.clearPos } ∧ t.link.handoffFifo = s.link.handoffFifo) ∧
         (s.seq.state = .leadIn ∨ s.seq.state = .folding ∨ s.seq.state = .tail →
           t.seq = { s.seq with clearPos := t.seq.clearPos, state := .runout, play := none } ∧
           ∀ d, s.seq.current = some d → s.seq.state = .tail ∨ ¬ s.haltIsHeld → s.causeFromBlade t d.panel .spliced)))

/-- A Web Map lookup fills what was pending on its panel: the nominal length and the dose from the pattern found, or from the last
mark interval, L_span and DOSE_DEFAULT with PATTERN_MISSING; filled fields stay; the segments charged to it take the dose (R77,
R89, R136, R172). The port goes on with what waits (R108, R113, R114). The exit that waited for the lookup at the head of the list
is taken, and the SPLICEs that waited behind it after it, in list order (R77, R79, R82); the head segment that waited for the dose
is judged (R176, R177). With both, the HANDOFF carries UNDERDOSED, or the notice follows it (R178). The model's own reading enters
here: logs 9, 10, 18, 27 and 40. -/
def Obligations.LookupsFillWhatWaited : Prop :=
  (∀ (s : State) (v : Service) (before after : List Feature) (f : Feature) (p : Panel) (nominal dose : Nat),
     s.store.serving = some v → v.lookup.requester = .webMap → s.map.features = before ++ f :: after → f.body = .panel p →
     p.number = v.lookup.panel → v.lookup.panel ∉ panelNumbers before → (∀ g ∈ s.map.features, g.reached = false) →
     (∀ g ∈ s.dose.queue, travel s.tracker.position g.close < (s.cfg.lSpan : Int)) →
     (∀ q, v.found = some q → nominal = q.nominal ∧ dose = q.dose) →
     (v.found = none → nominal = s.tracker.lastInterval.getD s.cfg.lSpan ∧ dose = s.cfg.doseDefault) →
     ∃ t, exec .webMapLookupComplete s = .next t ∧
       t.map.features =
         before ++
           { f with
             body :=
               .panel
                 { p with
                   nominal := some (p.nominal.getD nominal)
                   outLen := if p.outLen = .asNominal then .value (p.nominal.getD nominal) else p.outLen
                   dose := if p.dose = .pending then .value dose else p.dose } } :: after ∧
       t.events = (if v.found = none then s.events.set .patternMissing else s.events) ∧
       (∀ r, s.tracker.ref = some r → r.number = p.number → t.tracker.ref = some { r with nominal := some (r.nominal.getD nominal) }) ∧
       s.store.wentOn t.store ∧
       t = { s with
             map := { s.map with features := t.map.features }
             events := t.events
             store := t.store
             dose :=
               { s.dose with
                 queue := s.dose.queue.map fun g => if g.panel = p.number ∧ g.required = none then { g with required := some dose } else g }
             tracker := { s.tracker with ref := t.tracker.ref }
             seq := { s.seq with current := t.seq.current, next := t.seq.next } }) ∧
  (∀ (s : State) (v : Service) (f : Feature) (p : Panel) (nominal dose len : Nat) (fill : Segment → Segment),
     s.store.serving = some v → v.lookup.requester = .webMap → f.body = .panel p → p.number = v.lookup.panel →
     (∀ q, v.found = some q → nominal = q.nominal ∧ dose = q.dose) →
     (v.found = none → nominal = s.tracker.lastInterval.getD s.cfg.lSpan ∧ dose = s.cfg.doseDefault) →
     (s.cfg.blade = false → len = p.nominal.getD nominal ∧ p.outLen ≠ .pending) →
     (s.cfg.blade = true → p.outLen = .value len ∨ p.outLen = .asNominal ∧ len = p.nominal.getD nominal) →
     (∀ g, fill g = if g.panel = p.number ∧ g.required = none then { g with required := some dose } else g) →
     (∀ (held after : List Feature) (numbers : List (Nat × Bool)), s.map.features = f :: (held ++ after) → f.reached = true → f.overdue = false →
       (∀ g ∈ held, g.reached = true ∧ g.overdue = false) → held.map (fun g => g.body) = numbers.map (fun x => .splice x.1 x.2) →
       (∀ g ∈ after, g.reached = false ∧ g.overdue = false) →
       (∀ g ∈ s.dose.queue, travel s.tracker.position g.close < (s.cfg.lSpan : Int)) →
       (s.isLast = true →
         ∃ t, exec .webMapLookupComplete s = .next t ∧ t.map.features = after ∧ t.link = s.link ∧ t.line = s.line ∧
           t.map.gateOpen = if s.cfg.rejectGate then p.cause.isSome else s.map.gateOpen) ∧
       (s.isLast = false → s.link.handoffFifo.length + held.length < 8 → s.events.has .duplicateIndex = false →
         ∃ t, exec .webMapLookupComplete s = .next t ∧ t.map.features = after ∧ t.line = s.line ∧ t.map.gateOpen = s.map.gateOpen ∧
           t.link.handoffFifo.map (fun x => x.payload) =
             s.link.handoffFifo.map (fun x => x.payload) ++
               .handoffPanel (BitVec.ofNat 32 p.number) (BitVec.ofNat 16 p.pattern) (BitVec.ofNat 32 len)
                   (BitVec.ofNat 8 ((p.cause.map RejectCause.code).getD 0)) ::
                 numbers.map (fun x => .handoffSplice (BitVec.ofNat 32 x.1)))) ∧
     (∀ (g : Segment) (rest : List Segment), s.dose.queue = g :: rest → g.panel = p.number → g.required = none → g.splice = false →
       g.rejected = false → (s.cfg.lSpan : Int) ≤ travel s.tracker.position g.close →
       (∀ h ∈ rest, travel s.tracker.position h.close < (s.cfg.lSpan : Int)) →
       (∀ before after, s.map.features = before ++ f :: after → p.number ∉ panelNumbers before → (∀ h ∈ s.map.features, h.reached = false) →
         ∃ t, exec .webMapLookupComplete s = .next t ∧ t.dose.queue = rest.map fill ∧ t.link = s.link ∧ t.line = s.line ∧
           (dose ≤ g.dose ∨ p.number = s.dose.lastRejected →
             t.dose.lastRejected = s.dose.lastRejected ∧ (t.panel? p.number).map (fun q => q.cause) = some p.cause) ∧
           (g.dose < dose → p.number ≠ s.dose.lastRejected →
             t.dose.lastRejected = p.number ∧
             (t.panel? p.number).map (fun q => q.cause) = some (some (p.cause.getD .underdosed)))) ∧
       (∀ after, s.map.features = f :: after → p.number ∉ panelNumbers after → f.reached = true → f.overdue = false →
         (∀ h ∈ after, h.reached = false ∧ h.overdue = false) → g.dose < dose → p.number ≠ s.dose.lastRejected → p.cause = none →
         s.isLast = false → s.link.handoffFifo.length < 7 → s.events.has .duplicateIndex = false →
         ∃ t, exec .webMapLookupComplete s = .next t ∧ t.map.features = after ∧ t.line = s.line ∧
           t.dose = { s.dose with queue := rest.map fill, lastRejected := p.number } ∧
           (t.link.handoffFifo.map (fun x => x.payload) =
               s.link.handoffFifo.map (fun x => x.payload) ++
                 [.handoffPanel (BitVec.ofNat 32 p.number) (BitVec.ofNat 16 p.pattern) (BitVec.ofNat 32 len) 6] ∨
             t.link.handoffFifo.map (fun x => x.payload) =
               s.link.handoffFifo.map (fun x => x.payload) ++
                 [.handoffPanel (BitVec.ofNat 32 p.number) (BitVec.ofNat 16 p.pattern) (BitVec.ofNat 32 len) 0,
                  .handoffReject (BitVec.ofNat 32 p.number) 6]))))

/-- A lookup finds the pattern of the VALID slot of its id, and nothing where no slot is VALID with it (R112). A Sequencer
lookup's pattern becomes the next context of the panel that is next, with its figures; for the current panel that waits for it, it
becomes the current context, set up and played in LEAD_IN; for any other panel it is dropped. An insertion's lookup hands the
output length to the panel's record in every case; a late copy leaves the records as they are. A missing pattern gives a FLAT
context with PATTERN_MISSING, which in LEAD_IN plays nothing and is in TAIL (R77, R122, R124, R127, R128, R134 to R136, R138,
R139). The port goes on with what waits (R108, R113, R114). The exit at the blade that waited for the output length is taken at
that delivery, and the SPLICEs that waited behind it, while the play starts: it leaves as a HANDOFF, or through the gate at the
last station, or becomes OVERDUE with HANDOFF_BACKLOG, and where that enters HELD at once the play that has just started ends in
RUNOUT with cause HALTED (R77, R79, R80, R82, R139, R152). The model's own reading enters here: logs 9, 18 and 45. -/
def Obligations.SequencerLookupsGiveTheContext : Prop :=
  (∀ (st : Store) (id : Nat),
    ((∀ i : Fin 32, (st.record i).state = .valid → (st.record i).id ≠ some id) → st.lookup id = none) ∧
    (∀ i : Fin 32, (st.record i).state = .valid → (st.record i).id = some id →
      (∀ j < i, (st.record j).state = .valid → (st.record j).id ≠ some id) →
      st.lookup id = (st.cell i).map fun r => r.pattern)) ∧
  (∀ (s : State) (v : Service), s.store.serving = some v → v.lookup.requester ≠ .webMap →
    ((∀ g ∈ s.map.features, g.reached = true → g.overdue = true) →
      ∃ t, exec .sequencerLookupComplete s = .next t ∧ s.fillsOutput t v ∧ s.takesCopy t v ∧ s.store.wentOn t.store ∧
        t.events = (if v.found = none then s.events.set .patternMissing else s.events) ∧
        (∀ (p : Panel) (f : Feature), s.nextPanel = some (p, f) → p.number = v.lookup.panel →
          (∀ c, s.seq.current = some c → c.panel ≠ v.lookup.panel ∨ c.delivered = true) →
          (∀ q, v.found = some q →
            t.seq.next =
              some
                { panel := p.number, id := p.pattern, entry := f.entry, nominal := p.nominal, pattern := some q
                  outLen := some q.outputLength, qPanel := 65536 * q.outputLength / q.nominal, cMin := q.cMin, delivered := true }) ∧
          (v.found = none →
            t.seq.next =
              some
                { panel := p.number, id := p.pattern, entry := f.entry, nominal := p.nominal, pattern := none, outLen := p.nominal
                  qPanel := 65536, cMin := none, delivered := true })) ∧
        (s.nextPanelNumber ≠ some v.lookup.panel ∨
            (∃ c, s.seq.current = some c ∧ c.panel = v.lookup.panel ∧ c.delivered = false) → t.seq.next = s.seq.next) ∧
        t = { s with map := t.map, store := t.store, events := t.events
                     seq := { s.seq with current := t.seq.current, next := t.seq.next, play := t.seq.play, state := t.seq.state } }) ∧
    (∀ (f : Feature) (p : Panel) (held after : List Feature) (numbers : List (Nat × Bool)) (l len : Nat), s.cfg.blade = true →
      v.lookup.requester = .insertion → s.map.features = f :: (held ++ after) → f.body = .panel p → p.number = v.lookup.panel →
      f.reached = true → f.overdue = false → (∀ g ∈ held, g.reached = true ∧ g.overdue = false) →
      held.map (fun g => g.body) = numbers.map (fun x => .splice x.1 x.2) → (∀ g ∈ after, g.reached = false ∧ g.overdue = false) →
      p.outLen = .pending → p.nominal = some l → p.dose ≠ .pending →
      (∀ q, v.found = some q → len = q.outputLength) → (v.found = none → len = l) →
      (s.isLast = true →
        ∃ t, exec .sequencerLookupComplete s = .next t ∧ t.map.features = after ∧ t.link = s.link ∧ s.takesCopy t v ∧
          t.map.gateOpen = if s.cfg.rejectGate then p.cause.isSome else s.map.gateOpen) ∧
      (s.isLast = false → s.link.handoffFifo.length + held.length < 8 → s.events.has .duplicateIndex = false →
        ∃ t, exec .sequencerLookupComplete s = .next t ∧ t.map = { s.map with features := after } ∧ s.takesCopy t v ∧ t.line = s.line ∧
          t.link = { s.link with handoffFifo := t.link.handoffFifo, serial := s.link.serial + 1 + held.length } ∧
          t.link.handoffFifo.map (fun x => x.payload) =
            s.link.handoffFifo.map (fun x => x.payload) ++
              .handoffPanel (BitVec.ofNat 32 p.number) (BitVec.ofNat 16 p.pattern) (BitVec.ofNat 32 len)
                  (BitVec.ofNat 8 ((p.cause.map RejectCause.code).getD 0)) ::
                numbers.map (fun x => .handoffSplice (BitVec.ofNat 32 x.1))) ∧
      (s.isLast = false → 8 ≤ s.link.handoffFifo.length ∨ s.events.has .duplicateIndex = true →
        ∃ t, exec .sequencerLookupComplete s = .next t ∧ t.events.has .handoffBacklog = true ∧
          t.listIs ((f :: held).map (fun g => { g with overdue := true }) ++ after) ∧
          t.link.handoffFifo = s.link.handoffFifo ∧
          (s.line.state = .run ∨ s.line.state = .stopping → t.line.state = if s.line.vCmd = 0 then .held else .halting) ∧
          (¬ s.haltIsHeld → s.takesCopy t v ∧ t.panel? p.number = some { p with outLen := .value len }) ∧
          (s.haltIsHeld → ∀ c, s.seq.current = some c → c.panel = p.number → c.delivered = false → s.seq.state = .leadIn →
            ((Play.setUp (ahead c.entry s.cfg.bDist) v.found s.tracker.stretch).strike ≠ none →
              t.seq.state = .runout ∧ t.seq.play = none ∧
              t.panel? p.number = some { p with outLen := .value len, cause := some (p.cause.getD .halted) }) ∧
            ((Play.setUp (ahead c.entry s.cfg.bDist) v.found s.tracker.stretch).strike = none →
              t.seq.state = .tail ∧ t.panel? p.number = some { p with outLen := .value len })))))

/-! ### Pattern Store (R96 to R119) -/

/-- A PAT_OPEN out of range is refused; any other opens the buffer with its header clamped, and LOAD_FAILED when it was OPEN. A
PAT_STEP with the next sequence number and room under the announced count joins its clamped entries; any other closes the buffer
with LOAD_FAILED (R99 to R101). -/
def Obligations.PatternFramesFillTheBuffer : Prop :=
  ∀ (s : State) (bytes : List Byte) (sender : BitVec 4) (targets : BitVec 16),
    (∀ (pattern : BitVec 16) (nominal leadIn : BitVec 24) (dose : BitVec 16) (count : Byte),
      s.hears bytes ⟨sender, .patOpen targets pattern nominal leadIn dose count⟩ →
      (pattern = 0 ∨ 4095 < pattern.toNat ∨ count = 0 ∨ 96 < count.toNat →
        exec (.patOpen bytes) s = .next { s.heard with events := { s.events with refusedKind := 0x15, refusalCause := 4 } }) ∧
      (pattern ≠ 0 → pattern.toNat ≤ 4095 → count ≠ 0 → count.toNat ≤ 96 →
        exec (.patOpen bytes) s =
          .next
            { s.heard with
              store :=
                { s.store with
                  buffer :=
                    some
                      { id := pattern.toNat
                        nominal := max 20000 (min 800000 nominal.toNat)
                        leadIn := min (max 20000 (min 800000 nominal.toNat)) leadIn.toNat
                        dose := min 60000 dose.toNat
                        announced := count.toNat
                        nextSeq := 0
                        entries := [] } }
              events := if s.store.buffer = none then s.events else s.events.set .loadFailed })) ∧
    ∀ (sequence : Byte) (entries : List RawEntry), s.hears bytes ⟨sender, .patStep targets sequence entries⟩ →
      (s.store.buffer = none → exec (.patStep bytes) s = .next { s.heard with events := s.events.set .loadFailed }) ∧
      ∀ b, s.store.buffer = some b →
        (sequence.toNat ≠ b.nextSeq ∨ b.announced < b.entries.length + entries.length →
          exec (.patStep bytes) s =
            .next { s.heard with store := { s.store with buffer := none }, events := s.events.set .loadFailed }) ∧
        (sequence.toNat = b.nextSeq → b.entries.length + entries.length ≤ b.announced →
          exec (.patStep bytes) s =
            .next
              { s.heard with
                store :=
                  { s.store with
                    buffer := some { b with nextSeq := b.nextSeq + 1, entries := b.entries ++ entries.map clampEntry } } }) ∧
        (∀ hand face depth rep gradeFace gradeDepth, clampEntry (.fold hand face depth rep gradeFace gradeDepth) =
          .fold hand (max 200 (min 8000 face.toNat)) (max 100 (min 4000 depth.toNat)) (max 1 rep.toNat)
            (max (-500) (min 500 gradeFace.toInt)) (max (-500) (min 500 gradeDepth.toInt))) ∧
        (∀ length, clampEntry (.flat length) = .flat (max 1 (min 100000 length.toNat))) ∧
        (∀ n, clampEntry (.group n) = .group (max 1 n.toNat)) ∧ clampEntry .close = .close ∧ clampEntry .mirror = .mirror

/-- A PAT_CLOSE is refused with the cause of the first check it fails and closes the buffer; one that passes reserves the lowest
EMPTY slot and appends the program of the buffer's pattern. A PAT_ERASE is refused for an id out of range, protected or not found,
in that order, and else retires the VALID slot and appends its erase (R102, R105 to R107). The structure check holds the open
groups to 4, every END to an open group, all groups to be closed, and each MIRROR to stand after the END of a group without a
GROUP (R103); the expanded consumption is the sum of the lengths in play order, each group as often as its count and each MIRROR
its group once, and a FOLD's is the sum of its repetitions' face and two depths, each graded from the unclamped expression and
clamped (R104). -/
def Obligations.PatternFramesCloseAndErase : Prop :=
  (∀ (s : State) (bytes : List Byte) (sender : BitVec 4) (targets pattern : BitVec 16),
    (∀ count : Byte, s.hears bytes ⟨sender, .patClose targets pattern count⟩ →
      (s.store.buffer = none →
        exec (.patClose bytes) s = .next { s.heard with events := { s.events with refusedKind := 0x17, refusalCause := 5 } }) ∧
      ∀ b sequenceGood isProtected, s.store.buffer = some b →
        (sequenceGood ↔ pattern.toNat = b.id ∧ count.toNat = b.announced ∧ b.entries.length = b.announced) →
        (isProtected ↔ b.id ≤ s.cfg.protectBoundary ∧
          ∃ i : Fin 32, ((s.store.record i).state = .valid ∨ (s.store.record i).state = .programming) ∧
            (s.store.record i).id = some b.id) →
        (∀ cause : Byte,
          (cause = 5 ∧ ¬ sequenceGood ∨
            sequenceGood ∧
              (cause = 6 ∧ structureGood b.entries = false ∨
                structureGood b.entries = true ∧
                  (cause = 7 ∧ b.nominal < b.leadIn + expandedConsumption b.entries ∨
                    b.leadIn + expandedConsumption b.entries ≤ b.nominal ∧
                      (cause = 8 ∧ isProtected ∨
                        ¬ isProtected ∧ cause = 9 ∧ ∀ i : Fin 32, (s.store.record i).state ≠ .empty)))) →
          exec (.patClose bytes) s =
            .next
              { s.heard with
                store := { s.store with buffer := none }
                events := { s.events with refusedKind := 0x17, refusalCause := cause } }) ∧
        (sequenceGood → structureGood b.entries = true → b.leadIn + expandedConsumption b.entries ≤ b.nominal → ¬ isProtected →
          s.store.phase ≠ none ∨ s.store.serving ≠ none ∨ s.store.ops = [] →
          ∀ i : Fin 32, (s.store.record i).state = .empty → (∀ j < i, (s.store.record j).state ≠ .empty) →
          ∃ t, exec (.patClose bytes) s = .next t ∧ t.store.buffer = none ∧
            (t.store.record i).state = .programming ∧ (t.store.record i).id = some b.id ∧
            (t.store.record i).count = some b.entries.length ∧
            t.store.ops =
              s.store.ops ++
                [.program i { id := b.id, nominal := b.nominal, leadIn := b.leadIn, dose := b.dose, entries := b.entries }] ∧
            (∀ id : Nat, t.store.lookup id = s.store.lookup id) ∧ t = { s.heard with store := t.store })) ∧
    (s.hears bytes ⟨sender, .patErase targets pattern⟩ →
      (pattern = 0 ∨ 4095 < pattern.toNat →
        exec (.patErase bytes) s = .next { s.heard with events := { s.events with refusedKind := 0x18, refusalCause := 4 } }) ∧
      (pattern ≠ 0 → pattern.toNat ≤ 4095 →
        (pattern.toNat ≤ s.cfg.protectBoundary →
          exec (.patErase bytes) s = .next { s.heard with events := { s.events with refusedKind := 0x18, refusalCause := 8 } }) ∧
        (s.cfg.protectBoundary < pattern.toNat →
          ((∀ i : Fin 32, (s.store.record i).state = .valid → (s.store.record i).id ≠ some pattern.toNat) →
            exec (.patErase bytes) s = .next { s.heard with events := { s.events with refusedKind := 0x18, refusalCause := 10 } }) ∧
          (∀ i : Fin 32, (s.store.record i).state = .valid → (s.store.record i).id = some pattern.toNat →
            (∀ j < i, (s.store.record j).state = .valid → (s.store.record j).id ≠ some pattern.toNat) →
            ∃ t, exec (.patErase bytes) s = .next t ∧ t.store.ops = s.store.ops ++ [.erase i] ∧
              (s.store.phase ≠ none ∨ s.store.serving ≠ none → (t.store.record i).state = .retired) ∧
              (s.store.phase = none → s.store.serving = none → s.store.ops = [] →
                (t.store.record i).state = .erasing ∧ t.store.phase = some .writing ∧ t.store.opTime = 45000) ∧
              (∀ j : Fin 32, j ≠ i → (s.store.phase ≠ none ∨ s.store.serving ≠ none ∨ s.store.ops = []) →
                t.store.record j = s.store.record j ∧ t.store.cell j = s.store.cell j) ∧
              t.store.buffer = s.store.buffer ∧ t = { s.heard with store := t.store }))))) ∧
  (∀ (entries : List Entry) (groups ends : Nat → Nat),
    (∀ k, groups k = ((entries.take k).filter fun e => match e with | .group _ => true | _ => false).length) →
    (∀ k, ends k = (entries.take k).count .close) →
    (structureGood entries = true ↔
      (∀ k : Nat, ends k ≤ groups k ∧ groups k ≤ ends k + 4) ∧ groups entries.length = ends entries.length ∧
      ∀ i : Nat, entries[i]? = some .mirror →
        ∃ j c, j + 2 ≤ i ∧ entries[i - 1]? = some .close ∧ entries[j]? = some (.group c) ∧
          ∀ k, j < k → k < i - 1 → entries[k]? ≠ some .close ∧ ∀ c, entries[k]? ≠ some (.group c))) ∧
  (∀ entries : List Entry, expandedConsumption entries = ((playOrder entries).map Element.length).sum) ∧
  (∀ (hand : Hand) (face depth rep : Nat) (gradeFace gradeDepth : Int),
    ((expandedConsumption [.fold hand face depth rep gradeFace gradeDepth] : Nat) : Int) =
      ((List.range rep).map fun k : Nat =>
        max 200 (min 8000 ((face : Int) + (k : Int) * gradeFace)) + 2 * max 100 (min 4000 ((depth : Int) + (k : Int) * gradeDepth))).sum)

/-- A program's completion advances the counter, which stands still at its end, writes the slot whole and makes it VALID with that
version; another VALID slot of the id is retired and its erase joins the FIFO. An erase's completion leaves its slot clean and
EMPTY. The completed operation leaves the FIFO, and the next one in it begins at that moment. An operation set aside is SUSPENDED
with the oldest Sequencer lookup served first, and is WRITING after its resume, or SUSPENDING anew for a lookup that came
meanwhile (R108 to R111, R113, R114). The model's own reading enters here: log 9. -/
def Obligations.NvOperationsCompleteAndStepAside : Prop :=
  ∀ s : State,
    (∀ (i : Fin 32) (p : Pattern) (rest : List NvOp) (version : Nat), s.store.phase = some .writing → s.store.serving = none →
      s.store.ops = .program i p :: rest → (∀ op ∈ rest, op.slot ≠ i) → version = min (s.store.counter.getD 0 + 1) 4294967295 →
      ∃ t, exec .nvProgramComplete s = .next t ∧ t.store.counter = some version ∧ t.store.headBegun ∧
        t.store.cell i = some { pattern := p, version := version, marker := true, checkGood := true, retired := false } ∧
        t.store.record i = { state := .valid, id := some p.id, version := some version, count := some p.entries.length } ∧
        ((∀ j : Fin 32, j ≠ i → (s.store.record j).state = .valid → (s.store.record j).id ≠ some p.id) →
          t.store.ops = rest ∧
          ∀ j : Fin 32, j ≠ i → (∀ op, rest.head? = some op → op.slot ≠ j) →
            t.store.record j = s.store.record j ∧ t.store.cell j = s.store.cell j) ∧
        (∀ j : Fin 32, j ≠ i → (s.store.record j).state = .valid → (s.store.record j).id = some p.id →
          (∀ k : Fin 32, k ≠ i → (s.store.record k).state = .valid → (s.store.record k).id = some p.id → k = j) →
          (∀ op ∈ rest, op.slot ≠ j) →
          t.store.ops = rest ++ [.erase j] ∧ (t.store.record j).state = (if rest = [] then .erasing else .retired) ∧
          t.store.cell j = (s.store.cell j).map (fun r => { r with retired := true }) ∧
          ∀ k : Fin 32, k ≠ i → k ≠ j → (∀ op, rest.head? = some op → op.slot ≠ k) →
            t.store.record k = s.store.record k ∧ t.store.cell k = s.store.cell k) ∧
        t = { s with store := t.store }) ∧
    (∀ (i : Fin 32) (rest : List NvOp), s.store.phase = some .writing → s.store.serving = none → s.store.ops = .erase i :: rest →
      (∀ op ∈ rest, op.slot ≠ i) →
      ∃ t, exec .nvEraseComplete s = .next t ∧ t.store.ops = rest ∧ t.store.headBegun ∧ t.store.cell i = none ∧
        t.store.record i = { state := .empty, id := none, version := none, count := none } ∧
        (∀ j : Fin 32, j ≠ i → (∀ op, rest.head? = some op → op.slot ≠ j) →
          t.store.record j = s.store.record j ∧ t.store.cell j = s.store.cell j) ∧
        t = { s with store := t.store }) ∧
    (s.store.phase = some .suspending → s.store.serving = none →
      (∀ l rest, s.store.seqWaiting = l :: rest →
        ∃ t service, exec .suspendEnd s = .next t ∧ service.lookup = l ∧ service.found = s.store.lookup l.id ∧
          t = { s with store := { s.store with phase := some .suspended, seqWaiting := rest, serving := some service } }) ∧
      (∀ l rest, s.store.seqWaiting = [] → s.store.mapWaiting = l :: rest →
        ∃ t service, exec .suspendEnd s = .next t ∧ service.lookup = l ∧ service.found = s.store.lookup l.id ∧
          t = { s with store := { s.store with phase := some .suspended, mapWaiting := rest, serving := some service } })) ∧
    (s.store.phase = some .resuming → s.store.serving = none →
      (s.store.seqWaiting = [] → s.store.mapWaiting = [] →
        exec .resumeEnd s = .next { s with store := { s.store with phase := some .writing } }) ∧
      (s.store.seqWaiting ≠ [] ∨ s.store.mapWaiting ≠ [] →
        exec .resumeEnd s = .next { s with store := { s.store with phase := some .suspending } }))

/-! ### Fold geometry and the blade (R120 to R153) -/

/-- An element of nominal length X adds floor((X s + R) / 65,536) to the running position and leaves (X s + R) mod 65,536 as the
remainder, in 40 bits; while s stays the same, the position after any elements from a remainder of 0 is the base plus floor(N s /
65,536), and the remainder N s mod 65,536, N being the sum of their lengths; and a length of 600 moves it 562 ticks at least, and
one of 400 moves it 375 (R123). Repetition k of a FOLD has the face F + k ΔF clamped to 200 to 8,000 and the depth D + k ΔD
clamped to 100 to 4,000, and consumes its face and two depths, 400 to 16,000 by those clamps (R120). The model's own reading
enters here: log 43. -/
def Obligations.RemaindersKeepTheScaledSum : Prop :=
  (∀ (p : Play) (stretch : Nat),
     (∀ x : Nat,
       (p.addLength stretch x).position = p.position + BitVec.ofNat 32 ((x * stretch + p.remainder) / 65536) ∧
       (p.addLength stretch x).remainder = (x * stretch + p.remainder) % 65536 ∧
       (x ≤ 800000 → stretch ≤ 69632 → p.remainder ≤ 65535 → x * stretch + p.remainder ≤ 55705665535) ∧
       (600 ≤ x → 61440 ≤ stretch → 562 ≤ (x * stretch + p.remainder) / 65536) ∧
       (400 ≤ x → 61440 ≤ stretch → 375 ≤ (x * stretch + p.remainder) / 65536)) ∧
     ∀ lengths : List Nat, p.remainder = 0 →
       (lengths.foldl (fun q x => q.addLength stretch x) p).position =
           p.position + BitVec.ofNat 32 (lengths.sum * stretch / 65536) ∧
         (lengths.foldl (fun q x => q.addLength stretch x) p).remainder = lengths.sum * stretch % 65536) ∧
  (∀ (face depth k : Nat) (gradeFace gradeDepth : Int),
    ((gradedFace face gradeFace k : Nat) : Int) = max 200 (min 8000 ((face : Int) + k * gradeFace)) ∧
    ((gradedDepth depth gradeDepth k : Nat) : Int) = max 100 (min 4000 ((depth : Int) + k * gradeDepth)) ∧
    foldConsumption face depth gradeFace gradeDepth k = gradedFace face gradeFace k + 2 * gradedDepth depth gradeDepth k ∧
    400 ≤ foldConsumption face depth gradeFace gradeDepth k ∧ foldConsumption face depth gradeFace gradeDepth k ≤ 16000)

/-- At the outstanding strike position in FOLDING: in RUN with no stroke running, the blade takes the strike's hand and depth word
with BLSTB active for T_STROKE, and the next strike position is computed, TAIL following the last; in RUN during a stroke,
STROKE_OVERRUN is latched and the panel is rejected OVERRUN; outside RUN the fold is missed and the panel rejected HALTED: on its
record while the list holds it, else by a notice, or, at the last station and without room, with LATE_REJECT. That the origin's
last created panel keeps the cause of a notice is the model's choice, log 44. A stroke's end makes BLSTB inactive and keeps hand
and depth word; a clear position that is passed becomes absent (R78, R86, R125, R126, R137, R146 to R149, R151). The strikes of a
panel follow its pattern in play order: a FOLD its repetitions, a group its count of times, a MIRROR the group just closed once,
backward and with the other hand; each strike position is the base and the floor of the scaled sum of the lead-in and every length
up to that repetition, with its hand and depth word, and none is left after the last (R121 to R125, R143 to R145). The model's own
reading enters here: logs 31 and 44. -/
def Obligations.StrikesAreMadeOverrunOrMissed : Prop :=
  (∀ s : State,
     (∀ (p : Play) (k : Strike), s.seq.state = .folding → s.seq.play = some p → p.strike = some k →
       (travel s.tracker.position k.pos < 0 → exec .strikePositionReached s = .next s) ∧
       (0 ≤ travel s.tracker.position k.pos →
         (s.line.state = .run → s.seq.strokeTimer = none →
           ∀ q, q = p.nextStrike (s.seq.current.bind fun c => c.pattern) s.tracker.stretch →
           exec .strikePositionReached s =
             .next
               { s with
                 seq :=
                   { s.seq with
                     state := if q.strike = none then .tail else .folding
                     play := some q
                     strokeTimer := some (s.cfg.tStroke * 1000)
                     bladeStrobe := true
                     bladeHand := k.hand
                     bladeDepth := BitVec.ofNat 12 k.depth } }) ∧
         (s.line.state = .run → s.seq.strokeTimer ≠ none → ∀ d, s.seq.current = some d →
           ∃ t, exec .strikePositionReached s = .next t ∧
             ({ s with events := s.events.set .strokeOverrun } : State).givesUpPanel t d.panel .overrun) ∧
         (s.line.state ≠ .run → ∀ d, s.seq.current = some d →
           ∃ t, exec .strikePositionReached s = .next t ∧ s.givesUpPanel t d.panel .halted) ∧
         (∀ d, s.seq.current = some d → d.panel ∉ panelNumbers s.map.features → s.isLast = false →
           s.link.handoffFifo.length < 8 → s.events.has .duplicateIndex = false →
           (s.line.state = .run → s.seq.strokeTimer ≠ none →
             exec .strikePositionReached s =
               .next
                 { s with
                   plan := s.planAfter d.panel .overrun
                   events := s.events.set .strokeOverrun
                   link :=
                     { s.link with
                       handoffFifo :=
                         s.link.handoffFifo ++
                           [{ id := s.link.serial, payload := .handoffReject (BitVec.ofNat 32 d.panel) 3 }]
                       serial := s.link.serial + 1 }
                   seq := { s.seq with state := .runout, play := none } }) ∧
           (s.line.state ≠ .run →
             exec .strikePositionReached s =
               .next
                 { s with
                   plan := s.planAfter d.panel .halted
                   link :=
                     { s.link with
                       handoffFifo :=
                         s.link.handoffFifo ++
                           [{ id := s.link.serial, payload := .handoffReject (BitVec.ofNat 32 d.panel) 5 }]
                       serial := s.link.serial + 1 }
                   seq := { s.seq with state := .runout, play := none } })))) ∧
     (s.seq.strokeTimer ≠ none →
       exec .strokeTimerExpiry s = .next { s with seq := { s.seq with strokeTimer := none, bladeStrobe := false } }) ∧
     (∀ q, s.seq.clearPos = some q →
       (travel s.tracker.position q < 0 → exec .spliceClearPassed s = .next s) ∧
       (0 ≤ travel s.tracker.position q → exec .spliceClearPassed s = .next { s with seq := { s.seq with clearPos := none } }))) ∧
  (∀ (p : Pattern) (base : Pos) (s : Nat), structureGood p.entries = true → p.entries.all Entry.counts = true →
     ∀ n : Nat, (playAfter base s p n).strike = (strikesFrom base s p.leadIn (playOrder p.entries))[n]?)

/-! ### Steam zones (R154 to R169) -/

/-- A sample timer expiry has every fitted zone converted in zone order. A good sample gives the temperature floor(raw × 2,500 /
4,095) and, in GOOD, the duty floor((Kp e + I) / 256) clamped to the period, with the integrator held at the valve's limits and
clamped; the third consecutive bad sample makes the zone FAULTED with ZONE_SENSOR, duty zero and an inactive valve; in FAULTED the
third consecutive good one makes it GOOD again. A period's start takes the pending duty into use, the valve active unless it is 0,
and inactive after the duty. An active valve of polarity 0 has its output high and one of polarity 1 low, an inactive one the
other level; the output of a zone that is not fitted, and every one with CONFIG_BAD, is undriven (R155 to R165). The model's own
reading enters here: logs 33, 34 and 37. -/
def Obligations.SamplesDriveTheValves : Prop :=
  ∀ s : State,
    (s.steam.sampleTimer ≠ none →
      exec .sampleTimerExpiry s = .next { s with steam := { s.steam with converting := List.range s.steam.zones.length } }) ∧
    (∀ (i : Nat) (rest : List Nat) (z : Zone) (raw : BitVec 12), s.steam.converting = i :: rest → s.steam.zones[i]? = some z →
      ∃ t y, exec (.zoneConversionComplete i raw) s = .next t ∧
        t = { s with steam := { s.steam with converting := rest, zones := s.steam.zones.set i y }, events := t.events } ∧
        y.setpointInUse =
          (if s.line.state = .run ∨ s.line.state = .stopping then z.cfg.setpoint else z.cfg.setback) ∧
        (y.inBand = true ↔ y.faulted = false ∧ (s.line.state = .run ∨ s.line.state = .stopping) ∧
          ∃ temp, y.temperature = some temp ∧ (z.cfg.setpoint : Int) - (z.cfg.band : Int) ≤ (temp : Int)) ∧
        (raw.toNat ≤ 8 ∨ 4087 ≤ raw.toNat →
          (z.faulted = true → t.events = s.events ∧
            y = { z with good := 0, setpointInUse := y.setpointInUse, inBand := false }) ∧
          (z.faulted = false → z.bad < 2 → t.events = s.events ∧
            y = { z with bad := z.bad + 1, setpointInUse := y.setpointInUse, inBand := y.inBand }) ∧
          (z.faulted = false → 2 ≤ z.bad → t.events = s.events.set .zoneSensor ∧
            y = { z with faulted := true, bad := 3, good := 0, setpointInUse := y.setpointInUse, integrator := 0, pendingDuty := none
                         duty := 0, inBand := false, active := false })) ∧
        (8 < raw.toNat → raw.toNat < 4087 → t.events = s.events ∧ y.temperature = some (raw.toNat * 2500 / 4095) ∧
          (z.faulted = true → z.good < 2 →
            y = { z with temperature := y.temperature, good := z.good + 1, setpointInUse := y.setpointInUse, inBand := false }) ∧
          (z.faulted = false ∨ 2 ≤ z.good →
            y.faulted = false ∧ y.bad = 0 ∧ y.duty = z.duty ∧ y.active = z.active ∧ y.cfg = z.cfg ∧ y.periodTimer = z.periodTimer ∧
            ∀ (e : Int) (duty : Nat), e = (y.setpointInUse : Int) - ((raw.toNat * 2500 / 4095 : Nat) : Int) →
              (duty : Int) = max 0 (min (z.cfg.period : Int) (((z.cfg.kp : Int) * e + z.integrator) / 256)) →
              y.pendingDuty = some duty ∧
              ((duty = z.cfg.period ∧ 0 < e) ∨ (duty = 0 ∧ e < 0) → y.integrator = z.integrator) ∧
              (¬ ((duty = z.cfg.period ∧ 0 < e) ∨ (duty = 0 ∧ e < 0)) →
                y.integrator =
                  max (-((z.cfg.period : Int) * 256))
                    (min ((z.cfg.period : Int) * 256) (z.integrator + (z.cfg.ki : Int) * e)))))) ∧
    (∀ (i : Nat) (z : Zone), s.steam.zones[i]? = some z →
      (z.periodTimer ≠ none →
        exec (.valvePeriodStart i) s =
          .next
            { s with
              steam :=
                { s.steam with
                  zones :=
                    s.steam.zones.set i
                      { z with
                        duty := z.pendingDuty.getD z.duty
                        pendingDuty := none
                        active := decide (0 < z.pendingDuty.getD z.duty) } } }) ∧
      (z.active = true →
        (z.duty < z.cfg.period →
          exec (.valveActiveEnd i) s =
            .next { s with steam := { s.steam with zones := s.steam.zones.set i { z with active := false } } }) ∧
        (z.cfg.period ≤ z.duty → exec (.valveActiveEnd i) s = .next s))) ∧
    (∀ i : Nat,
      (s.steam.zones[i]? = none ∨ s.events.has .configBad = true → s.valveLevel i = .undriven) ∧
      ∀ z, s.steam.zones[i]? = some z → s.events.has .configBad = false →
        (z.cfg.activeLow = false → s.valveLevel i = if z.active then .high else .low) ∧
        (z.cfg.activeLow = true → s.valveLevel i = if z.active then .low else .high))

/-! ### Heat dose (R170 to R182) -/

/-- A dose tick credits 10 to each segment whose midpoint stands in an in-band zone, to 65,535 at the end, and nothing to the
others (R174). At a boundary a segment is made that ends there, charged to the PANEL nearest at or before it with its number, dose
and cause, or to none, with the SPLICE flag for a splice in its web; the next boundary lies SEG_LEN on. A segment at the exit
leaves: exempt with a flag, held while its dose is pending, good at or above its required dose, else underdosed, once a panel: the
cause is set, or a notice follows the panel (R171, R172, R176, R177). The model's own reading enters here: log 17. -/
def Obligations.DosesAreCreditedAndJudged : Prop :=
  (∀ s : State, s.dose.timer ≠ none →
     ∃ t, exec .doseTimerExpiry s = .next t ∧ t = { s with dose := { s.dose with queue := t.dose.queue } } ∧
       t.dose.queue.length = s.dose.queue.length ∧
       ∀ (n : Nat) (g : Segment) (d : Int), s.dose.queue[n]? = some g →
         d = travel s.tracker.position g.close + ((s.cfg.segLen / 2 : Nat) : Int) →
         ((∃ z ∈ s.steam.zones, z.inBand = true ∧ (z.cfg.start : Int) ≤ d ∧ d < (z.cfg.stop : Int)) →
           t.dose.queue[n]? = some { g with dose := if 65530 ≤ g.dose then 65535 else g.dose + 10 }) ∧
         ((∀ z ∈ s.steam.zones, z.inBand = true → d < (z.cfg.start : Int) ∨ (z.cfg.stop : Int) ≤ d) → t.dose.queue[n]? = some g)) ∧
  (∀ s : State,
     (s.dose.timer ≠ none →
       (travel s.tracker.position s.dose.nextBoundary < 0 → exec .segmentBoundary s = .next s) ∧
       (0 ≤ travel s.tracker.position s.dose.nextBoundary → s.dose.queue.length < 64 →
         (∀ g, s.dose.queue.head? = some g → travel s.tracker.position g.close < (s.cfg.lSpan : Int)) →
         ∃ g, exec .segmentBoundary s =
             .next
               { s with
                 dose :=
                   { s.dose with
                     queue := s.dose.queue ++ [g], nextBoundary := s.dose.nextBoundary + BitVec.ofNat 32 s.cfg.segLen } } ∧
           g.close = s.dose.nextBoundary ∧ g.dose = 0 ∧
           (∀ before f after p, s.map.features = before ++ f :: after → f.body = .panel p → 0 ≤ travel g.close f.entry →
             (∀ h ∈ after, ∀ q, h.body = .panel q → travel g.close h.entry < 0) →
             g.panel = p.number ∧ g.rejected = p.cause.isSome ∧ (∀ d, p.dose = .value d → g.required = some d) ∧
             (p.dose = .pending → g.required = none)) ∧
           ((∀ h ∈ s.map.features, ∀ q, h.body = .panel q → travel g.close h.entry < 0) →
             g.panel = 0 ∧ g.rejected = false ∧ g.required = some 0) ∧
           (g.splice = true ↔ ∃ h ∈ s.map.features, ∃ n a, h.body = .splice n a ∧ 0 ≤ travel g.close h.entry ∧
             travel (g.close - BitVec.ofNat 32 s.cfg.segLen) h.entry < 0))) ∧
     ∀ g rest, s.dose.queue = g :: rest →
       (travel s.tracker.position g.close < (s.cfg.lSpan : Int) → exec .segmentAtExit s = .next s) ∧
       ((s.cfg.lSpan : Int) ≤ travel s.tracker.position g.close →
         (g.splice = true ∨ g.rejected = true ∨ (∃ r, g.required = some r ∧ r ≤ g.dose) ∨
             (∃ r, g.required = some r ∧ g.panel = s.dose.lastRejected) →
           exec .segmentAtExit s = .next { s with dose := { s.dose with queue := rest } }) ∧
         (g.splice = false → g.rejected = false → g.required = none → exec .segmentAtExit s = .next s) ∧
         (g.splice = false → g.rejected = false → ∀ r, g.required = some r → g.dose < r → g.panel ≠ s.dose.lastRejected →
           ∃ t, exec .segmentAtExit s = .next t ∧ t.dose = { s.dose with queue := rest, lastRejected := g.panel } ∧
             (∀ p, s.panel? g.panel = some p →
               (p.cause = none → t.panel? g.panel = some { p with cause := some .underdosed }) ∧
               (p.cause ≠ none → t.map = s.map) ∧ t.link = s.link ∧ t.events = s.events) ∧
             (s.panel? g.panel = none → t.map = s.map ∧
               (s.isLast = false → s.link.handoffFifo.length < 8 → s.events.has .duplicateIndex = false →
                 t.events = s.events ∧
                 t.link =
                   { s.link with
                     handoffFifo :=
                       s.link.handoffFifo ++ [{ id := s.link.serial, payload := .handoffReject (BitVec.ofNat 32 g.panel) 6 }]
                     serial := s.link.serial + 1 }) ∧
               (s.isLast = true ∨ 8 ≤ s.link.handoffFifo.length → t.link = s.link ∧ t.events = s.events.set .lateReject)) ∧
             s.planKept t ∧ (s.cfg.origin = false → t.plan = s.plan) ∧
             t = { s with dose := t.dose, map := t.map, link := t.link, events := t.events, plan := t.plan
                          tracker := { s.tracker with ref := t.tracker.ref } })))

/-! ### Roll change (R183 to R199) -/

/-- A ROLL is refused NOT_FITTED, OUT_OF_RANGE or BAD_STATE by the table of R184; else it makes its position ACTIVE when no roll
is, arming the splice at SPLICE_AT or less, or LOADED when the other is, and an ARMED splice in RUN then begins MATCHING; its
length is clamped to 2^31 (R184, R187, R188). The run-out of the ACTIVE roll empties its record, returns the splice to IDLE, with
v_new 0 and its timers stopped from MATCHING, but lets PASTING and CUTTING run on, and latches ROLL_OUT, which halts a running
line and the panel at the blade. The arming test moves IDLE to ARMED when the ACTIVE roll has SPLICE_AT or less, and at once to
MATCHING with the incoming roll LOADED in RUN (R186 to R188). The model's own reading enters here: log 44. -/
def Obligations.RollsAreAnnouncedRunOutAndArm : Prop :=
  (∀ (s : State) (bytes : List Byte) (sender : BitVec 4) (targets : BitVec 16) (position : Byte) (rollId : BitVec 16)
     (length : BitVec 32), s.hears bytes ⟨sender, .roll targets position rollId length⟩ →
     (s.cfg.origin = false ∨ s.cfg.unwind = false →
       exec (.roll bytes) s = .next { s.heard with events := { s.events with refusedKind := 0x19, refusalCause := 11 } }) ∧
     (s.cfg.origin = true → s.cfg.unwind = true →
       (1 < position.toNat ∨ length = 0 →
         exec (.roll bytes) s = .next { s.heard with events := { s.events with refusedKind := 0x19, refusalCause := 4 } }) ∧
       ∀ side : Side, (position = 0 ∧ side = .a ∨ position = 1 ∧ side = .b) → length ≠ 0 →
         (s.splice.state = .pasting ∨ s.splice.state = .cutting ∨ (s.splice.roll side).state = .active ∨
             (s.splice.roll side).state = .expiring ∨ s.splice.state = .matching ∧ s.splice.incoming = some side →
           exec (.roll bytes) s = .next { s.heard with events := { s.events with refusedKind := 0x19, refusalCause := 2 } }) ∧
         (s.splice.state = .idle ∨ s.splice.state = .armed ∨ s.splice.state = .inhibited → (s.splice.roll side).state ≠ .active →
           (s.splice.roll side).state ≠ .expiring →
           ∃ t, exec (.roll bytes) s = .next t ∧ t = { s.heard with splice := t.splice, step1 := t.step1 } ∧
             t.splice.roll side.other = s.splice.roll side.other ∧
             ((s.splice.roll side.other).state ≠ .active →
               t.splice.roll side = { state := .active, id := some rollId.toNat, remaining := some (min length.toNat 2147483648) } ∧
               (s.splice.state = .idle →
                 (s.cfg.spliceAt < min length.toNat 2147483648 → t.splice.state = .idle) ∧
                 (min length.toNat 2147483648 ≤ s.cfg.spliceAt →
                   t.splice.state =
                     if (s.splice.roll side.other).state = .loaded ∧ s.line.state = .run then .matching else .armed)) ∧
               (s.splice.state ≠ .idle → t.splice.state = s.splice.state)) ∧
             ((s.splice.roll side.other).state = .active →
               t.splice.roll side = { state := .loaded, id := some rollId.toNat, remaining := some (min length.toNat 2147483648) } ∧
               t.splice.state =
                 if s.splice.state = .armed ∧ s.line.state = .run then .matching else s.splice.state)))) ∧
  (∀ (s : State) (side : Side), (s.splice.roll side).state = .active → (s.splice.roll side.other).state ≠ .active →
     ((s.splice.roll side).remaining = some 0 →
       ∃ t, exec .rollRunOut s = .next t ∧ t.events.has .rollOut = true ∧
         t.splice.roll side = { state := .empty, id := none, remaining := none } ∧
         t.splice.roll side.other = s.splice.roll side.other ∧
         (s.splice.state = .pasting ∨ s.splice.state = .cutting → t.splice.state = s.splice.state ∧ t.splice.paste = s.splice.paste ∧
           t.splice.cut = s.splice.cut ∧ t.splice.strobeTimer = s.splice.strobeTimer) ∧
         (s.splice.state ≠ .pasting → s.splice.state ≠ .cutting → t.splice.state = .idle) ∧
         (s.splice.state = .matching → t.splice.vNew = 0 ∧ t.splice.rampTimer = none ∧ t.splice.matchTimer = none ∧
           t.splice.matchTimeout = none) ∧
         (s.line.state = .run ∨ s.line.state = .stopping → t.line.state = if s.line.vCmd = 0 then .held else .halting) ∧
         t.line.vCmd = s.line.vCmd ∧ t.tracker.position = s.tracker.position ∧ s.heldRule t ∧ t.store = s.store ∧
         t.dose = s.dose) ∧
     (s.cfg.origin = true → s.cfg.unwind = true → s.boot.phase = .done → s.splice.state = .idle → ∀ r,
       (s.splice.roll side).remaining = some r →
       (s.cfg.spliceAt < r → exec .spliceArming s = .next s) ∧
       (r ≤ s.cfg.spliceAt →
         ∃ t, exec .spliceArming s = .next t ∧ t = { s with splice := t.splice, step1 := t.step1 } ∧
           t.splice.rollA = s.splice.rollA ∧ t.splice.rollB = s.splice.rollB ∧
           ((s.splice.roll side.other).state = .loaded → s.line.state = .run →
             t.splice.state = .matching ∧ t.splice.vNew = 0 ∧ t.splice.rampTimer = some 1000 ∧
             t.splice.matchTimeout = some 10000000 ∧ t.splice.matchTimer = if s.matchCondition then some 200000 else none) ∧
           ((s.splice.roll side.other).state ≠ .loaded ∨ s.line.state ≠ .run →
             t.splice = { s.splice with state := .armed } ∧ t.step1 = s.step1))))

/-- In MATCHING v_new moves to the local speed by ACC up and DEC down. A complete match enters PASTING: PASTE for 150 ms, the
running roll EXPIRING and the incoming one ACTIVE, v_new at the local speed, the counter advanced, and a SPLICE of the old number
offered P_dist ahead, which with a P_dist of 0 reaches the entry at once; a full list discards it with MAP_FULL, the guard stays,
and the stretch reference becomes absent. The timeout enters INHIBITED with SPLICE_FAILED. The paste's end begins CUT for 50 ms;
the cut's end empties the expiring roll, sets v_new to 0 and returns to IDLE, or to ARMED when the new roll is short already; when
the new roll has run out meanwhile, both records are EMPTY (R69, R76, R92, R187, R189 to R195, R197). The model's own reading
enters here: log 30. -/
def Obligations.MatchPasteAndCut : Prop :=
  ∀ s : State,
    (s.splice.state = .matching →
      (s.splice.rampTimer ≠ none →
        ∃ t, exec .spliceRampTimerExpiry s = .next t ∧
          t.splice.vNew =
            (if s.splice.vNew < s.localSpeed then min s.localSpeed (s.splice.vNew + s.cfg.acc)
            else if s.localSpeed < s.splice.vNew then max s.localSpeed (s.splice.vNew - s.cfg.dec)
            else s.splice.vNew) ∧
          (t.splice.vNew = s.splice.vNew ∨ s.cfg.unwind = false → t.step1 = s.step1) ∧
          (t.splice.vNew ≠ s.splice.vNew → s.cfg.unwind = true →
            t.step1 = s.step1.place (divisorFor s.cfg.newRollTicksPerStep t.splice.vNew)) ∧
          t = { s with splice := { s.splice with vNew := t.splice.vNew }, step1 := t.step1 }) ∧
      (s.splice.matchTimer ≠ none → ∀ side : Side, (s.splice.roll side).state = .active →
        (s.splice.roll side.other).state = .loaded →
        ∃ t, exec .matchTimerExpiry s = .next t ∧ t.splice.state = .pasting ∧ t.splice.paste = true ∧ t.splice.cut = s.splice.cut ∧
          t.splice.strobeTimer = some 150000 ∧ t.splice.rampTimer = none ∧ t.splice.matchTimer = none ∧
          t.splice.matchTimeout = none ∧ t.splice.roll side = { s.splice.roll side with state := .expiring } ∧
          t.splice.roll side.other = { s.splice.roll side.other with state := .active } ∧ t.splice.vNew = s.localSpeed ∧
          t.splice.counter = (if s.splice.counter = 4294967295 then 1 else s.splice.counter + 1) ∧
          (s.map.features.length < 32 → s.cfg.pDist ≠ 0 →
            t.map.features =
              insertFeature
                { body := .splice s.splice.counter false, entry := s.tracker.position + BitVec.ofNat 32 s.cfg.pDist, overdue := false
                  reached := false }
                s.map.features ∧
            t = { s with splice := t.splice, step1 := t.step1, map := { s.map with features := t.map.features }
                         tracker := { s.tracker with guard := some (s.tracker.position + BitVec.ofNat 32 s.cfg.pDist) } }) ∧
          (s.map.features.length < 32 → s.cfg.pDist = 0 → s.cfg.origin = true →
            (∃ u : State, exec .spliceReachesEntry u = .next t ∧
              u = { s with
                    splice := t.splice
                    step1 := t.step1
                    tracker := { s.tracker with guard := some s.tracker.position }
                    map :=
                      { s.map with
                        features :=
                          insertFeature
                            { body := .splice s.splice.counter false, entry := s.tracker.position, overdue := false, reached := false }
                            s.map.features } }) ∧
            ((∀ g ∈ s.map.features, ∀ m, g.body = .splice m false → travel s.tracker.position g.entry < 0) →
              ∃ g ∈ t.map.features, g.body = .splice s.splice.counter true ∧ g.entry = s.tracker.position) ∧
            ∀ c, s.plan.lastCreated = some c →
              (∀ p, s.panel? c.number = some p →
                t.panel? c.number = some { p with cause := some (p.cause.getD .spliced) } ∧ t.link = s.link) ∧
              (s.panel? c.number = none → s.isLast = false → s.link.handoffFifo.length < 8 → s.events.has .duplicateIndex = false →
                t.link.handoffFifo.map (fun x => x.payload) =
                  s.link.handoffFifo.map (fun x => x.payload) ++ [.handoffReject (BitVec.ofNat 32 c.number) 2])) ∧
          (32 ≤ s.map.features.length →
            t.events.has .mapFull = true ∧ t.tracker.guard = s.tracker.guard ∧ t.tracker.ref = none ∧
            t.map.features.map (fun f => f.entry) = s.map.features.map (fun f => f.entry))) ∧
      (s.splice.matchTimeout ≠ none →
        ∃ t, exec .matchTimeoutExpiry s = .next t ∧
          t = { s with
                step1 := t.step1
                events := s.events.set .spliceFailed
                splice :=
                  { s.splice with state := .inhibited, vNew := 0, rampTimer := none, matchTimer := none, matchTimeout := none } })) ∧
    (s.splice.state = .pasting → s.splice.strobeTimer ≠ none →
      exec .pasteStrobeEnd s =
        .next { s with splice := { s.splice with state := .cutting, paste := false, cut := true, strobeTimer := some 50000 } }) ∧
    (s.splice.state = .cutting → s.splice.strobeTimer ≠ none → ∀ (side : Side) (r : Nat), (s.splice.roll side).state = .expiring →
      (s.splice.roll side.other).state = .active → (s.splice.roll side.other).remaining = some r →
      ∃ t, exec .cutStrobeEnd s = .next t ∧ t.splice.roll side = { state := .empty, id := none, remaining := none } ∧
        t.splice.roll side.other = s.splice.roll side.other ∧ t.splice.cut = false ∧ t.splice.strobeTimer = none ∧
        t.splice.vNew = 0 ∧ t.splice.state = (if r ≤ s.cfg.spliceAt then .armed else .idle) ∧
        t.splice.counter = s.splice.counter ∧ t = { s with splice := t.splice, step1 := t.step1 }) ∧
    (s.splice.state = .cutting → s.splice.strobeTimer ≠ none → ∀ side : Side, (s.splice.roll side).state = .expiring →
      (s.splice.roll side.other).state = .empty →
      ∃ t, exec .cutStrobeEnd s = .next t ∧ t.splice.roll side = { state := .empty, id := none, remaining := none } ∧
        t.splice.roll side.other = s.splice.roll side.other ∧ t.splice.cut = false ∧ t.splice.strobeTimer = none ∧
        t.splice.vNew = 0 ∧ t.splice.state = .idle ∧ t = { s with splice := t.splice, step1 := t.step1 })

/-! ### What every step keeps -/

/-- The reset state has every property the steps keep. -/
def Obligations.InvariantsHoldAtReset : Prop :=
  State.reset.withinCapacity ∧ State.reset.withinRanges ∧ State.reset.numbersUnique ∧ State.reset.listInOrder ∧
    State.reset.speedLimited ∧ State.reset.splice.sound ∧ State.reset.zonesSound ∧ State.reset.dosesSound ∧ State.reset.seq.sound ∧
    State.reset.store.oneCopy ∧ State.reset.storeSound

/-- Every step, from every such state, keeps the FIFOs, lists and queues within their capacities and the bounded values within
their ranges, q_out among them, and never lets handoffs and marks wait at once (R15, R16, R46, R47, R55, R64 to R66, R70, R76,
R88, R91, R173, R197). -/
def Obligations.StepsKeepCapacitiesAndRanges : Prop :=
  ∀ s t : State, s.withinCapacity → s.withinRanges → step s = .next t → t.withinCapacity ∧ t.withinRanges

/-- Every step keeps the panel numbers of the Web Map unique, and keeps the features in order of entry position while the
positions compared lie near the web position, as R75 says they do (R75, R76). -/
def Obligations.StepsKeepPanelNumbersUnique : Prop :=
  (∀ s t : State, s.numbersUnique → step s = .next t → t.numbersUnique) ∧
    ∀ s t : State, s.near → s.listInOrder → step s = .next t → t.listInOrder

/-- No step takes v_cmd above MAX_SPEED, and v_cmd is 0 with the ramp stopped while no configuration is in force (R41, R45). -/
def Obligations.StepsKeepTheSpeedLimit : Prop :=
  ∀ s t : State, s.speedLimited → step s = .next t → t.speedLimited

/-- Every step keeps at most one roll ACTIVE, EXPIRING records to PASTING and CUTTING, PASTE to PASTING and CUT to CUTTING (R183).
-/
def Obligations.StepsKeepTheRollsSound : Prop :=
  ∀ s t : State, s.splice.sound → step s = .next t → t.splice.sound

/-- Every step keeps the zones sound: duties within the period, the integrator within its bound, a FAULTED zone at duty zero with
its valve inactive and out of band, and bands to RUN and STOPPING; and the doses to whole ticks (R154, R158, R161, R162, R165,
R174). -/
def Obligations.StepsKeepZonesAndDosesSound : Prop :=
  ∀ s t : State, s.zonesSound → s.dosesSound → step s = .next t → t.zonesSound ∧ t.dosesSound

/-- Every step keeps BLSTB active exactly while the stroke timer runs, and a strike position outstanding in FOLDING (R147, R138,
R146). -/
def Obligations.StepsKeepStrokesAndStrikes : Prop :=
  ∀ s t : State, s.seq.sound → step s = .next t → t.seq.sound

/-- Every step keeps no two VALID slots of one pattern id; every VALID slot complete and unretired, with a pattern that passes the
structure and length checks of PAT_CLOSE; and no step but a reset changes a VALID slot of a protected id (R105, R109). -/
def Obligations.StepsKeepOneCopyOfEachPattern : Prop :=
  (∀ s t : State, s.store.oneCopy → step s = .next t → t.store.oneCopy) ∧
    (∀ s t : State, s.storeSound → step s = .next t → t.storeSound) ∧
    ∀ (s t : State) (i : Fin 32) (id : Nat), s.storeSound → s.boot.phase = .done → step s = .next t → t.boot.phase = .done →
      (s.store.record i).state = .valid → (s.store.record i).id = some id → id ≤ s.cfg.protectBoundary →
      t.store.record i = s.store.record i ∧ t.store.cell i = s.store.cell i
end

