-- ==== Sys2Proof/Laws/State.lean ====
section
/-! SUPPORT. The small lemmas of the state's named updates: what each puts where, true by definition. -/

namespace Sys2Proof.Machine

@[simp] theorem State.flag_events (s : State) (e : Event) : (s.flag e).events = s.events.set e := rfl

@[simp] theorem EventLatch.set_same (l : EventLatch) (e : Event) :
    (l.set e).refusedKind = l.refusedKind ∧ (l.set e).refusalCause = l.refusalCause ∧ (l.set e).resetCause = l.resetCause :=
  ⟨rfl, rfl, rfl⟩

@[simp] theorem State.refuse_events (s : State) (k : FrameKind) (c : RefusalCause) :
    (s.refuse k c).events = s.events.refuse k c := rfl

@[simp] theorem EventLatch.refuse_latched (l : EventLatch) (k : FrameKind) (c : RefusalCause) :
    (l.refuse k c).latched = l.latched := rfl

@[simp] theorem EventLatch.refuse_has (l : EventLatch) (k : FrameKind) (c : RefusalCause) (e : Event) :
    (l.refuse k c).has e = l.has e := rfl

@[simp] theorem State.pushHandoff_fifo (s : State) (p : Payload) :
    (s.pushHandoff p).link.handoffFifo = s.link.handoffFifo ++ [{ id := s.link.serial, payload := p }] := rfl

@[simp] theorem State.setZone_zones (s : State) (i : Nat) (z : Zone) : (s.setZone i z).steam.zones = s.steam.zones.set i z := rfl

@[simp] theorem State.setZone_line (s : State) (i : Nat) (z : Zone) : (s.setZone i z).line = s.line := rfl

@[simp] theorem Splice.roll_a (u : Splice) : u.roll .a = u.rollA := rfl

@[simp] theorem Splice.roll_b (u : Splice) : u.roll .b = u.rollB := rfl

@[simp] theorem Splice.setRoll_a (u : Splice) (r : Roll) : u.setRoll .a r = { u with rollA := r } := rfl

@[simp] theorem Splice.setRoll_b (u : Splice) (r : Roll) : u.setRoll .b r = { u with rollB := r } := rfl

@[simp] theorem Store.setRecord_nv (st : Store) (i : Fin 32) (r : SlotRecord) : (st.setRecord i r).nv = st.nv := rfl

@[simp] theorem Store.setCell_table (st : Store) (i : Fin 32) (c : Option NvRecord) : (st.setCell i c).table = st.table := rfl

@[simp] theorem Store.setRecord_record (st : Store) (i j : Fin 32) (r : SlotRecord) :
    (st.setRecord i r).record j = if i = j then r else st.record j := by
  unfold Store.setRecord Store.record
  rw [Vector.getElem_set]
  simp [Fin.ext_iff]

@[simp] theorem Store.setCell_cell (st : Store) (i j : Fin 32) (c : Option NvRecord) :
    (st.setCell i c).cell j = if i = j then c else st.cell j := by
  unfold Store.setCell Store.cell
  rw [Vector.getElem_set]
  simp [Fin.ext_iff]

@[simp] theorem Store.setCell_record (st : Store) (i j : Fin 32) (c : Option NvRecord) : (st.setCell i c).record j = st.record j := rfl

@[simp] theorem Store.setRecord_cell (st : Store) (i j : Fin 32) (r : SlotRecord) : (st.setRecord i r).cell j = st.cell j := rfl

@[simp] theorem LineControl.setPeer_peer (l : LineControl) (i j : BitVec 4) (p : Peer) :
    (l.setPeer i p).peer j = if i = j then p else l.peer j := by
  unfold LineControl.setPeer LineControl.peer
  simp only [Vector.getElem_set, BitVec.toNat_inj]

end Sys2Proof.Machine
end

