-- ==== Sys2Proof/Laws/Frames.lean ====
section
/-! SUPPORT. What each shared operation leaves unchanged: one lemma for each, as rewriting rules. -/

namespace Sys2Proof.Machine

/-- The pattern of a plan's queue that giveBack keeps. -/
@[simp] theorem PlanQueue.giveBack_same (q : PlanQueue) (c : CreatedPanel) :
    (q.giveBack c).counter = q.counter ∧ (q.giveBack c).lastCreated = q.lastCreated := by
  unfold PlanQueue.giveBack
  (repeat' split) <;> simp

@[simp] theorem State.planAfter_same (s : State) (n : Nat) (c : RejectCause) :
    (s.planAfter n c).entries = s.plan.entries ∧ (s.planAfter n c).counter = s.plan.counter := by
  unfold State.planAfter
  (repeat' split) <;> simp

@[simp] theorem Store.serveNext_same (st : Store) :
    st.serveNext.nv = st.nv ∧ st.serveNext.counter = st.counter ∧ st.serveNext.table = st.table ∧ st.serveNext.buffer = st.buffer ∧
    st.serveNext.ops = st.ops ∧ st.serveNext.phase = st.phase ∧ st.serveNext.opTime = st.opTime := by
  unfold Store.serveNext Store.serve
  split <;> simp

@[simp] theorem Store.portGoOn_same (st : Store) :
    st.portGoOn.nv = st.nv ∧ st.portGoOn.counter = st.counter ∧ st.portGoOn.table = st.table ∧ st.portGoOn.buffer = st.buffer ∧
    st.portGoOn.ops = st.ops ∧ st.portGoOn.opTime = st.opTime := by
  unfold Store.portGoOn
  (repeat' split) <;> simp

@[simp] theorem Store.request_same (st : Store) (l : Lookup) :
    (st.request l).nv = st.nv ∧ (st.request l).counter = st.counter ∧ (st.request l).table = st.table ∧
    (st.request l).buffer = st.buffer ∧ (st.request l).ops = st.ops ∧ (st.request l).opTime = st.opTime := by
  unfold Store.request
  split <;> simp

@[simp] theorem State.flag_same (s : State) (e : Event) :
    (s.flag e).pending = s.pending ∧ (s.flag e).boot = s.boot ∧ (s.flag e).cfg = s.cfg ∧ (s.flag e).link = s.link ∧
    (s.flag e).events.refusedKind = s.events.refusedKind ∧ (s.flag e).events.refusalCause = s.events.refusalCause ∧
    (s.flag e).events.resetCause = s.events.resetCause ∧ (s.flag e).line = s.line ∧ (s.flag e).step0 = s.step0 ∧
    (s.flag e).step1 = s.step1 ∧ (s.flag e).tracker = s.tracker ∧ (s.flag e).map = s.map ∧ (s.flag e).plan = s.plan ∧
    (s.flag e).store = s.store ∧ (s.flag e).seq = s.seq ∧ (s.flag e).steam = s.steam ∧ (s.flag e).dose = s.dose ∧
    (s.flag e).splice = s.splice ∧ (s.flag e).free = s.free := by
  simp [State.flag, EventLatch.set]

@[simp] theorem State.refuse_same (s : State) (k : FrameKind) (c : RefusalCause) :
    (s.refuse k c).pending = s.pending ∧ (s.refuse k c).boot = s.boot ∧ (s.refuse k c).cfg = s.cfg ∧
    (s.refuse k c).link = s.link ∧ (s.refuse k c).events.latched = s.events.latched ∧
    (s.refuse k c).events.resetCause = s.events.resetCause ∧ (s.refuse k c).line = s.line ∧ (s.refuse k c).step0 = s.step0 ∧
    (s.refuse k c).step1 = s.step1 ∧ (s.refuse k c).tracker = s.tracker ∧ (s.refuse k c).map = s.map ∧
    (s.refuse k c).plan = s.plan ∧ (s.refuse k c).store = s.store ∧ (s.refuse k c).seq = s.seq ∧
    (s.refuse k c).steam = s.steam ∧ (s.refuse k c).dose = s.dose ∧ (s.refuse k c).splice = s.splice ∧
    (s.refuse k c).free = s.free := by
  simp [State.refuse, EventLatch.refuse]

@[simp] theorem State.raiseHalt_same (s : State) (e : Event) :
    (s.raiseHalt e).pending = s.pending ∧ (s.raiseHalt e).boot = s.boot ∧ (s.raiseHalt e).cfg = s.cfg ∧
    (s.raiseHalt e).link.line = s.link.line ∧ (s.raiseHalt e).link.haltOnLine = s.link.haltOnLine ∧
    (s.raiseHalt e).link.haltClosed = s.link.haltClosed ∧ (s.raiseHalt e).link.beaconWaiting = s.link.beaconWaiting ∧
    (s.raiseHalt e).link.beaconOnLine = s.link.beaconOnLine ∧ (s.raiseHalt e).link.handoffFifo = s.link.handoffFifo ∧
    (s.raiseHalt e).link.generalFifo = s.link.generalFifo ∧ (s.raiseHalt e).link.mismatches = s.link.mismatches ∧
    (s.raiseHalt e).link.mismatchFrame = s.link.mismatchFrame ∧ (s.raiseHalt e).link.beaconTimer = s.link.beaconTimer ∧
    (s.raiseHalt e).events = s.events ∧ (s.raiseHalt e).line = s.line ∧ (s.raiseHalt e).step0 = s.step0 ∧
    (s.raiseHalt e).step1 = s.step1 ∧ (s.raiseHalt e).tracker = s.tracker ∧ (s.raiseHalt e).map = s.map ∧
    (s.raiseHalt e).plan = s.plan ∧ (s.raiseHalt e).store = s.store ∧ (s.raiseHalt e).seq = s.seq ∧
    (s.raiseHalt e).steam = s.steam ∧ (s.raiseHalt e).dose = s.dose ∧ (s.raiseHalt e).splice = s.splice ∧
    (s.raiseHalt e).free = s.free := by
  unfold State.raiseHalt
  split <;> simp

@[simp] theorem State.pushHandoff_same (s : State) (p : Payload) :
    (s.pushHandoff p).pending = s.pending ∧ (s.pushHandoff p).boot = s.boot ∧ (s.pushHandoff p).cfg = s.cfg ∧
    (s.pushHandoff p).link.line = s.link.line ∧ (s.pushHandoff p).link.haltWaiting = s.link.haltWaiting ∧
    (s.pushHandoff p).link.haltOnLine = s.link.haltOnLine ∧ (s.pushHandoff p).link.haltClosed = s.link.haltClosed ∧
    (s.pushHandoff p).link.beaconWaiting = s.link.beaconWaiting ∧ (s.pushHandoff p).link.beaconOnLine = s.link.beaconOnLine ∧
    (s.pushHandoff p).link.generalFifo = s.link.generalFifo ∧ (s.pushHandoff p).link.mismatches = s.link.mismatches ∧
    (s.pushHandoff p).link.mismatchFrame = s.link.mismatchFrame ∧ (s.pushHandoff p).link.beaconTimer = s.link.beaconTimer ∧
    (s.pushHandoff p).events = s.events ∧ (s.pushHandoff p).line = s.line ∧ (s.pushHandoff p).step0 = s.step0 ∧
    (s.pushHandoff p).step1 = s.step1 ∧ (s.pushHandoff p).tracker = s.tracker ∧ (s.pushHandoff p).map = s.map ∧
    (s.pushHandoff p).plan = s.plan ∧ (s.pushHandoff p).store = s.store ∧ (s.pushHandoff p).seq = s.seq ∧
    (s.pushHandoff p).steam = s.steam ∧ (s.pushHandoff p).dose = s.dose ∧ (s.pushHandoff p).splice = s.splice ∧
    (s.pushHandoff p).free = s.free := by
  simp [State.pushHandoff]

@[simp] theorem State.offerReports_same (s : State) (ps : List Payload) :
    (s.offerReports ps).pending = s.pending ∧ (s.offerReports ps).boot = s.boot ∧ (s.offerReports ps).cfg = s.cfg ∧
    (s.offerReports ps).link.line = s.link.line ∧ (s.offerReports ps).link.haltWaiting = s.link.haltWaiting ∧
    (s.offerReports ps).link.haltOnLine = s.link.haltOnLine ∧ (s.offerReports ps).link.haltClosed = s.link.haltClosed ∧
    (s.offerReports ps).link.beaconWaiting = s.link.beaconWaiting ∧
    (s.offerReports ps).link.beaconOnLine = s.link.beaconOnLine ∧ (s.offerReports ps).link.handoffFifo = s.link.handoffFifo ∧
    (s.offerReports ps).link.mismatches = s.link.mismatches ∧ (s.offerReports ps).link.mismatchFrame = s.link.mismatchFrame ∧
    (s.offerReports ps).link.beaconTimer = s.link.beaconTimer ∧ (s.offerReports ps).events = s.events ∧
    (s.offerReports ps).line = s.line ∧ (s.offerReports ps).step0 = s.step0 ∧ (s.offerReports ps).step1 = s.step1 ∧
    (s.offerReports ps).tracker = s.tracker ∧ (s.offerReports ps).map = s.map ∧ (s.offerReports ps).plan = s.plan ∧
    (s.offerReports ps).store = s.store ∧ (s.offerReports ps).seq = s.seq ∧ (s.offerReports ps).steam = s.steam ∧
    (s.offerReports ps).dose = s.dose ∧ (s.offerReports ps).splice = s.splice ∧ (s.offerReports ps).free = s.free := by
  unfold State.offerReports
  split <;> simp

@[simp] theorem State.setCause_same (s : State) (n : Nat) (c : RejectCause) :
    (s.setCause n c).pending = s.pending ∧ (s.setCause n c).boot = s.boot ∧ (s.setCause n c).cfg = s.cfg ∧
    (s.setCause n c).link = s.link ∧ (s.setCause n c).events = s.events ∧ (s.setCause n c).line = s.line ∧
    (s.setCause n c).step0 = s.step0 ∧ (s.setCause n c).step1 = s.step1 ∧
    (s.setCause n c).tracker.position = s.tracker.position ∧ (s.setCause n c).tracker.debt = s.tracker.debt ∧
    (s.setCause n c).tracker.web = s.tracker.web ∧ (s.setCause n c).tracker.speed = s.tracker.speed ∧
    (s.setCause n c).tracker.surface = s.tracker.surface ∧ (s.setCause n c).tracker.surfaceSpeed = s.tracker.surfaceSpeed ∧
    (s.setCause n c).tracker.lastMark = s.tracker.lastMark ∧ (s.setCause n c).tracker.lastInterval = s.tracker.lastInterval ∧
    (s.setCause n c).tracker.handoffs = s.tracker.handoffs ∧ (s.setCause n c).tracker.marks = s.tracker.marks ∧
    (s.setCause n c).tracker.misses = s.tracker.misses ∧ (s.setCause n c).tracker.stretch = s.tracker.stretch ∧
    (s.setCause n c).tracker.guard = s.tracker.guard ∧ (s.setCause n c).map.gateOpen = s.map.gateOpen ∧
    (s.setCause n c).plan.entries = s.plan.entries ∧ (s.setCause n c).plan.counter = s.plan.counter ∧
    (s.setCause n c).store = s.store ∧ (s.setCause n c).seq = s.seq ∧ (s.setCause n c).steam = s.steam ∧
    (s.setCause n c).dose = s.dose ∧ (s.setCause n c).splice = s.splice ∧ (s.setCause n c).free = s.free := by
  unfold State.setCause
  split <;> (try split) <;> simp

@[simp] theorem State.rejectNotice_same (s : State) (n : Nat) (c : Byte) :
    (s.rejectNotice n c).pending = s.pending ∧ (s.rejectNotice n c).boot = s.boot ∧ (s.rejectNotice n c).cfg = s.cfg ∧
    (s.rejectNotice n c).link.line = s.link.line ∧ (s.rejectNotice n c).link.haltWaiting = s.link.haltWaiting ∧
    (s.rejectNotice n c).link.haltOnLine = s.link.haltOnLine ∧ (s.rejectNotice n c).link.haltClosed = s.link.haltClosed ∧
    (s.rejectNotice n c).link.beaconWaiting = s.link.beaconWaiting ∧
    (s.rejectNotice n c).link.beaconOnLine = s.link.beaconOnLine ∧ (s.rejectNotice n c).link.generalFifo = s.link.generalFifo ∧
    (s.rejectNotice n c).link.mismatches = s.link.mismatches ∧ (s.rejectNotice n c).link.mismatchFrame = s.link.mismatchFrame ∧
    (s.rejectNotice n c).link.beaconTimer = s.link.beaconTimer ∧
    (s.rejectNotice n c).events.refusedKind = s.events.refusedKind ∧
    (s.rejectNotice n c).events.refusalCause = s.events.refusalCause ∧
    (s.rejectNotice n c).events.resetCause = s.events.resetCause ∧ (s.rejectNotice n c).line = s.line ∧
    (s.rejectNotice n c).step0 = s.step0 ∧ (s.rejectNotice n c).step1 = s.step1 ∧ (s.rejectNotice n c).tracker = s.tracker ∧
    (s.rejectNotice n c).map = s.map ∧ (s.rejectNotice n c).plan = s.plan ∧ (s.rejectNotice n c).store = s.store ∧
    (s.rejectNotice n c).seq = s.seq ∧ (s.rejectNotice n c).steam = s.steam ∧ (s.rejectNotice n c).dose = s.dose ∧
    (s.rejectNotice n c).splice = s.splice ∧ (s.rejectNotice n c).free = s.free := by
  unfold State.rejectNotice
  split <;> (try split) <;> simp

@[simp] theorem State.noticeOf_same (s : State) (n : Nat) (c : RejectCause) :
    (s.noticeOf n c).pending = s.pending ∧ (s.noticeOf n c).boot = s.boot ∧ (s.noticeOf n c).cfg = s.cfg ∧
    (s.noticeOf n c).link.line = s.link.line ∧ (s.noticeOf n c).link.haltWaiting = s.link.haltWaiting ∧
    (s.noticeOf n c).link.haltOnLine = s.link.haltOnLine ∧ (s.noticeOf n c).link.haltClosed = s.link.haltClosed ∧
    (s.noticeOf n c).link.beaconWaiting = s.link.beaconWaiting ∧ (s.noticeOf n c).link.beaconOnLine = s.link.beaconOnLine ∧
    (s.noticeOf n c).link.generalFifo = s.link.generalFifo ∧ (s.noticeOf n c).link.mismatches = s.link.mismatches ∧
    (s.noticeOf n c).link.mismatchFrame = s.link.mismatchFrame ∧ (s.noticeOf n c).link.beaconTimer = s.link.beaconTimer ∧
    (s.noticeOf n c).events.refusedKind = s.events.refusedKind ∧ (s.noticeOf n c).events.refusalCause = s.events.refusalCause ∧
    (s.noticeOf n c).events.resetCause = s.events.resetCause ∧ (s.noticeOf n c).line = s.line ∧
    (s.noticeOf n c).step0 = s.step0 ∧ (s.noticeOf n c).step1 = s.step1 ∧ (s.noticeOf n c).tracker = s.tracker ∧
    (s.noticeOf n c).map = s.map ∧ (s.noticeOf n c).plan.entries = s.plan.entries ∧
    (s.noticeOf n c).plan.counter = s.plan.counter ∧ (s.noticeOf n c).store = s.store ∧ (s.noticeOf n c).seq = s.seq ∧
    (s.noticeOf n c).steam = s.steam ∧ (s.noticeOf n c).dose = s.dose ∧ (s.noticeOf n c).splice = s.splice ∧
    (s.noticeOf n c).free = s.free := by
  unfold State.noticeOf
  dsimp only
  split <;> simp

@[simp] theorem State.condemn_same (s : State) (n : Nat) (c : RejectCause) :
    (s.condemn n c).pending = s.pending ∧ (s.condemn n c).boot = s.boot ∧ (s.condemn n c).cfg = s.cfg ∧
    (s.condemn n c).link.line = s.link.line ∧ (s.condemn n c).link.haltWaiting = s.link.haltWaiting ∧
    (s.condemn n c).link.haltOnLine = s.link.haltOnLine ∧ (s.condemn n c).link.haltClosed = s.link.haltClosed ∧
    (s.condemn n c).link.beaconWaiting = s.link.beaconWaiting ∧ (s.condemn n c).link.beaconOnLine = s.link.beaconOnLine ∧
    (s.condemn n c).link.generalFifo = s.link.generalFifo ∧ (s.condemn n c).link.mismatches = s.link.mismatches ∧
    (s.condemn n c).link.mismatchFrame = s.link.mismatchFrame ∧ (s.condemn n c).link.beaconTimer = s.link.beaconTimer ∧
    (s.condemn n c).events.refusedKind = s.events.refusedKind ∧ (s.condemn n c).events.refusalCause = s.events.refusalCause ∧
    (s.condemn n c).events.resetCause = s.events.resetCause ∧ (s.condemn n c).line = s.line ∧ (s.condemn n c).step0 = s.step0 ∧
    (s.condemn n c).step1 = s.step1 ∧ (s.condemn n c).tracker.position = s.tracker.position ∧
    (s.condemn n c).tracker.debt = s.tracker.debt ∧ (s.condemn n c).tracker.web = s.tracker.web ∧
    (s.condemn n c).tracker.speed = s.tracker.speed ∧ (s.condemn n c).tracker.surface = s.tracker.surface ∧
    (s.condemn n c).tracker.surfaceSpeed = s.tracker.surfaceSpeed ∧ (s.condemn n c).tracker.lastMark = s.tracker.lastMark ∧
    (s.condemn n c).tracker.lastInterval = s.tracker.lastInterval ∧ (s.condemn n c).tracker.handoffs = s.tracker.handoffs ∧
    (s.condemn n c).tracker.marks = s.tracker.marks ∧ (s.condemn n c).tracker.misses = s.tracker.misses ∧
    (s.condemn n c).tracker.stretch = s.tracker.stretch ∧ (s.condemn n c).tracker.guard = s.tracker.guard ∧
    (s.condemn n c).map.gateOpen = s.map.gateOpen ∧ (s.condemn n c).plan.entries = s.plan.entries ∧
    (s.condemn n c).plan.counter = s.plan.counter ∧ (s.condemn n c).store = s.store ∧ (s.condemn n c).seq = s.seq ∧
    (s.condemn n c).steam = s.steam ∧ (s.condemn n c).dose = s.dose ∧ (s.condemn n c).splice = s.splice ∧
    (s.condemn n c).free = s.free := by
  unfold State.condemn
  split <;> simp

@[simp] theorem State.abandonPanel_same (s : State) (c : RejectCause) :
    (s.abandonPanel c).pending = s.pending ∧ (s.abandonPanel c).boot = s.boot ∧ (s.abandonPanel c).cfg = s.cfg ∧
    (s.abandonPanel c).link.line = s.link.line ∧ (s.abandonPanel c).link.haltWaiting = s.link.haltWaiting ∧
    (s.abandonPanel c).link.haltOnLine = s.link.haltOnLine ∧ (s.abandonPanel c).link.haltClosed = s.link.haltClosed ∧
    (s.abandonPanel c).link.beaconWaiting = s.link.beaconWaiting ∧ (s.abandonPanel c).link.beaconOnLine = s.link.beaconOnLine ∧
    (s.abandonPanel c).link.generalFifo = s.link.generalFifo ∧ (s.abandonPanel c).link.mismatches = s.link.mismatches ∧
    (s.abandonPanel c).link.mismatchFrame = s.link.mismatchFrame ∧ (s.abandonPanel c).link.beaconTimer = s.link.beaconTimer ∧
    (s.abandonPanel c).events.refusedKind = s.events.refusedKind ∧
    (s.abandonPanel c).events.refusalCause = s.events.refusalCause ∧
    (s.abandonPanel c).events.resetCause = s.events.resetCause ∧ (s.abandonPanel c).line = s.line ∧
    (s.abandonPanel c).step0 = s.step0 ∧ (s.abandonPanel c).step1 = s.step1 ∧
    (s.abandonPanel c).tracker.position = s.tracker.position ∧ (s.abandonPanel c).tracker.debt = s.tracker.debt ∧
    (s.abandonPanel c).tracker.web = s.tracker.web ∧ (s.abandonPanel c).tracker.speed = s.tracker.speed ∧
    (s.abandonPanel c).tracker.surface = s.tracker.surface ∧ (s.abandonPanel c).tracker.surfaceSpeed = s.tracker.surfaceSpeed ∧
    (s.abandonPanel c).tracker.lastMark = s.tracker.lastMark ∧
    (s.abandonPanel c).tracker.lastInterval = s.tracker.lastInterval ∧
    (s.abandonPanel c).tracker.handoffs = s.tracker.handoffs ∧ (s.abandonPanel c).tracker.marks = s.tracker.marks ∧
    (s.abandonPanel c).tracker.misses = s.tracker.misses ∧ (s.abandonPanel c).tracker.stretch = s.tracker.stretch ∧
    (s.abandonPanel c).tracker.guard = s.tracker.guard ∧ (s.abandonPanel c).map.gateOpen = s.map.gateOpen ∧
    (s.abandonPanel c).plan.entries = s.plan.entries ∧ (s.abandonPanel c).plan.counter = s.plan.counter ∧
    (s.abandonPanel c).store = s.store ∧ (s.abandonPanel c).seq.current = s.seq.current ∧
    (s.abandonPanel c).seq.next = s.seq.next ∧ (s.abandonPanel c).seq.clearPos = s.seq.clearPos ∧
    (s.abandonPanel c).seq.strokeTimer = s.seq.strokeTimer ∧ (s.abandonPanel c).seq.bladeStrobe = s.seq.bladeStrobe ∧
    (s.abandonPanel c).seq.bladeHand = s.seq.bladeHand ∧ (s.abandonPanel c).seq.bladeDepth = s.seq.bladeDepth ∧
    (s.abandonPanel c).steam = s.steam ∧ (s.abandonPanel c).dose = s.dose ∧ (s.abandonPanel c).splice = s.splice ∧
    (s.abandonPanel c).free = s.free := by
  unfold State.abandonPanel
  split <;> simp

@[simp] theorem State.heldAbort_same (s : State) :
    (s.heldAbort).pending = s.pending ∧ (s.heldAbort).boot = s.boot ∧ (s.heldAbort).cfg = s.cfg ∧
    (s.heldAbort).link.line = s.link.line ∧ (s.heldAbort).link.haltWaiting = s.link.haltWaiting ∧
    (s.heldAbort).link.haltOnLine = s.link.haltOnLine ∧ (s.heldAbort).link.haltClosed = s.link.haltClosed ∧
    (s.heldAbort).link.beaconWaiting = s.link.beaconWaiting ∧ (s.heldAbort).link.beaconOnLine = s.link.beaconOnLine ∧
    (s.heldAbort).link.generalFifo = s.link.generalFifo ∧ (s.heldAbort).link.mismatches = s.link.mismatches ∧
    (s.heldAbort).link.mismatchFrame = s.link.mismatchFrame ∧ (s.heldAbort).link.beaconTimer = s.link.beaconTimer ∧
    (s.heldAbort).events.refusedKind = s.events.refusedKind ∧ (s.heldAbort).events.refusalCause = s.events.refusalCause ∧
    (s.heldAbort).events.resetCause = s.events.resetCause ∧ (s.heldAbort).line = s.line ∧ (s.heldAbort).step0 = s.step0 ∧
    (s.heldAbort).step1 = s.step1 ∧ (s.heldAbort).tracker.position = s.tracker.position ∧
    (s.heldAbort).tracker.debt = s.tracker.debt ∧ (s.heldAbort).tracker.web = s.tracker.web ∧
    (s.heldAbort).tracker.speed = s.tracker.speed ∧ (s.heldAbort).tracker.surface = s.tracker.surface ∧
    (s.heldAbort).tracker.surfaceSpeed = s.tracker.surfaceSpeed ∧ (s.heldAbort).tracker.lastMark = s.tracker.lastMark ∧
    (s.heldAbort).tracker.lastInterval = s.tracker.lastInterval ∧ (s.heldAbort).tracker.handoffs = s.tracker.handoffs ∧
    (s.heldAbort).tracker.marks = s.tracker.marks ∧ (s.heldAbort).tracker.misses = s.tracker.misses ∧
    (s.heldAbort).tracker.stretch = s.tracker.stretch ∧ (s.heldAbort).tracker.guard = s.tracker.guard ∧
    (s.heldAbort).map.gateOpen = s.map.gateOpen ∧ (s.heldAbort).plan.entries = s.plan.entries ∧
    (s.heldAbort).plan.counter = s.plan.counter ∧ (s.heldAbort).store = s.store ∧ (s.heldAbort).seq.current = s.seq.current ∧
    (s.heldAbort).seq.next = s.seq.next ∧ (s.heldAbort).seq.clearPos = s.seq.clearPos ∧
    (s.heldAbort).seq.strokeTimer = s.seq.strokeTimer ∧ (s.heldAbort).seq.bladeStrobe = s.seq.bladeStrobe ∧
    (s.heldAbort).seq.bladeHand = s.seq.bladeHand ∧ (s.heldAbort).seq.bladeDepth = s.seq.bladeDepth ∧
    (s.heldAbort).steam = s.steam ∧ (s.heldAbort).dose = s.dose ∧ (s.heldAbort).splice = s.splice ∧ (s.heldAbort).free = s.free := by
  unfold State.heldAbort
  split <;> simp

@[simp] theorem State.setVNew_same (s : State) (v : Nat) :
    (s.setVNew v).pending = s.pending ∧ (s.setVNew v).boot = s.boot ∧ (s.setVNew v).cfg = s.cfg ∧ (s.setVNew v).link = s.link ∧
    (s.setVNew v).events = s.events ∧ (s.setVNew v).line = s.line ∧ (s.setVNew v).step0 = s.step0 ∧
    (s.setVNew v).tracker = s.tracker ∧ (s.setVNew v).map = s.map ∧ (s.setVNew v).plan = s.plan ∧
    (s.setVNew v).store = s.store ∧ (s.setVNew v).seq = s.seq ∧ (s.setVNew v).steam = s.steam ∧ (s.setVNew v).dose = s.dose ∧
    (s.setVNew v).splice.rollA = s.splice.rollA ∧ (s.setVNew v).splice.rollB = s.splice.rollB ∧
    (s.setVNew v).splice.state = s.splice.state ∧ (s.setVNew v).splice.rampTimer = s.splice.rampTimer ∧
    (s.setVNew v).splice.matchTimer = s.splice.matchTimer ∧ (s.setVNew v).splice.matchTimeout = s.splice.matchTimeout ∧
    (s.setVNew v).splice.strobeTimer = s.splice.strobeTimer ∧ (s.setVNew v).splice.paste = s.splice.paste ∧
    (s.setVNew v).splice.cut = s.splice.cut ∧ (s.setVNew v).splice.counter = s.splice.counter ∧ (s.setVNew v).free = s.free := by
  unfold State.setVNew
  split <;> simp

@[simp] theorem State.leaveMatching_same (s : State) (g : SpliceState) :
    (s.leaveMatching g).pending = s.pending ∧ (s.leaveMatching g).boot = s.boot ∧ (s.leaveMatching g).cfg = s.cfg ∧
    (s.leaveMatching g).link = s.link ∧ (s.leaveMatching g).events = s.events ∧ (s.leaveMatching g).line = s.line ∧
    (s.leaveMatching g).step0 = s.step0 ∧ (s.leaveMatching g).tracker = s.tracker ∧ (s.leaveMatching g).map = s.map ∧
    (s.leaveMatching g).plan = s.plan ∧ (s.leaveMatching g).store = s.store ∧ (s.leaveMatching g).seq = s.seq ∧
    (s.leaveMatching g).steam = s.steam ∧ (s.leaveMatching g).dose = s.dose ∧
    (s.leaveMatching g).splice.rollA = s.splice.rollA ∧ (s.leaveMatching g).splice.rollB = s.splice.rollB ∧
    (s.leaveMatching g).splice.strobeTimer = s.splice.strobeTimer ∧ (s.leaveMatching g).splice.paste = s.splice.paste ∧
    (s.leaveMatching g).splice.cut = s.splice.cut ∧ (s.leaveMatching g).splice.counter = s.splice.counter ∧
    (s.leaveMatching g).free = s.free := by
  simp [State.leaveMatching]

@[simp] theorem State.tryMatching_same (s : State) :
    (s.tryMatching).pending = s.pending ∧ (s.tryMatching).boot = s.boot ∧ (s.tryMatching).cfg = s.cfg ∧
    (s.tryMatching).link = s.link ∧ (s.tryMatching).events = s.events ∧ (s.tryMatching).line = s.line ∧
    (s.tryMatching).step0 = s.step0 ∧ (s.tryMatching).tracker = s.tracker ∧ (s.tryMatching).map = s.map ∧
    (s.tryMatching).plan = s.plan ∧ (s.tryMatching).store = s.store ∧ (s.tryMatching).seq = s.seq ∧
    (s.tryMatching).steam = s.steam ∧ (s.tryMatching).dose = s.dose ∧ (s.tryMatching).splice.rollA = s.splice.rollA ∧
    (s.tryMatching).splice.rollB = s.splice.rollB ∧ (s.tryMatching).splice.strobeTimer = s.splice.strobeTimer ∧
    (s.tryMatching).splice.paste = s.splice.paste ∧ (s.tryMatching).splice.cut = s.splice.cut ∧
    (s.tryMatching).splice.counter = s.splice.counter ∧ (s.tryMatching).free = s.free := by
  unfold State.tryMatching
  split <;> simp

@[simp] theorem State.armTest_same (s : State) :
    (s.armTest).pending = s.pending ∧ (s.armTest).boot = s.boot ∧ (s.armTest).cfg = s.cfg ∧ (s.armTest).link = s.link ∧
    (s.armTest).events = s.events ∧ (s.armTest).line = s.line ∧ (s.armTest).step0 = s.step0 ∧ (s.armTest).tracker = s.tracker ∧
    (s.armTest).map = s.map ∧ (s.armTest).plan = s.plan ∧ (s.armTest).store = s.store ∧ (s.armTest).seq = s.seq ∧
    (s.armTest).steam = s.steam ∧ (s.armTest).dose = s.dose ∧ (s.armTest).splice.rollA = s.splice.rollA ∧
    (s.armTest).splice.rollB = s.splice.rollB ∧ (s.armTest).splice.strobeTimer = s.splice.strobeTimer ∧
    (s.armTest).splice.paste = s.splice.paste ∧ (s.armTest).splice.cut = s.splice.cut ∧
    (s.armTest).splice.counter = s.splice.counter ∧ (s.armTest).free = s.free := by
  unfold State.armTest
  split <;> simp

@[simp] theorem State.spliceOnLine_same (s : State) :
    (s.spliceOnLine).pending = s.pending ∧ (s.spliceOnLine).boot = s.boot ∧ (s.spliceOnLine).cfg = s.cfg ∧
    (s.spliceOnLine).link = s.link ∧ (s.spliceOnLine).events = s.events ∧ (s.spliceOnLine).line = s.line ∧
    (s.spliceOnLine).step0 = s.step0 ∧ (s.spliceOnLine).tracker = s.tracker ∧ (s.spliceOnLine).map = s.map ∧
    (s.spliceOnLine).plan = s.plan ∧ (s.spliceOnLine).store = s.store ∧ (s.spliceOnLine).seq = s.seq ∧
    (s.spliceOnLine).steam = s.steam ∧ (s.spliceOnLine).dose = s.dose ∧ (s.spliceOnLine).splice.rollA = s.splice.rollA ∧
    (s.spliceOnLine).splice.rollB = s.splice.rollB ∧ (s.spliceOnLine).splice.strobeTimer = s.splice.strobeTimer ∧
    (s.spliceOnLine).splice.paste = s.splice.paste ∧ (s.spliceOnLine).splice.cut = s.splice.cut ∧
    (s.spliceOnLine).splice.counter = s.splice.counter ∧ (s.spliceOnLine).free = s.free := by
  unfold State.spliceOnLine
  split <;> (try split) <;> simp

@[simp] theorem State.enterLine_same (s : State) (st : LineState) :
    (s.enterLine st).pending = s.pending ∧ (s.enterLine st).boot = s.boot ∧ (s.enterLine st).cfg = s.cfg ∧
    (s.enterLine st).link.line = s.link.line ∧ (s.enterLine st).link.haltWaiting = s.link.haltWaiting ∧
    (s.enterLine st).link.haltOnLine = s.link.haltOnLine ∧ (s.enterLine st).link.haltClosed = s.link.haltClosed ∧
    (s.enterLine st).link.beaconWaiting = s.link.beaconWaiting ∧ (s.enterLine st).link.beaconOnLine = s.link.beaconOnLine ∧
    (s.enterLine st).link.generalFifo = s.link.generalFifo ∧ (s.enterLine st).link.mismatches = s.link.mismatches ∧
    (s.enterLine st).link.mismatchFrame = s.link.mismatchFrame ∧ (s.enterLine st).link.beaconTimer = s.link.beaconTimer ∧
    (s.enterLine st).events.refusedKind = s.events.refusedKind ∧ (s.enterLine st).events.refusalCause = s.events.refusalCause ∧
    (s.enterLine st).events.resetCause = s.events.resetCause ∧ (s.enterLine st).line.peers = s.line.peers ∧
    (s.enterLine st).line.setpoint = s.line.setpoint ∧ (s.enterLine st).line.vCmd = s.line.vCmd ∧
    (s.enterLine st).line.qIn = s.line.qIn ∧ (s.enterLine st).line.rampTimer = s.line.rampTimer ∧
    (s.enterLine st).line.driveTimer = s.line.driveTimer ∧ (s.enterLine st).line.haltOrigin = s.line.haltOrigin ∧
    (s.enterLine st).step0 = s.step0 ∧ (s.enterLine st).tracker.position = s.tracker.position ∧
    (s.enterLine st).tracker.debt = s.tracker.debt ∧ (s.enterLine st).tracker.web = s.tracker.web ∧
    (s.enterLine st).tracker.speed = s.tracker.speed ∧ (s.enterLine st).tracker.surface = s.tracker.surface ∧
    (s.enterLine st).tracker.surfaceSpeed = s.tracker.surfaceSpeed ∧ (s.enterLine st).tracker.lastMark = s.tracker.lastMark ∧
    (s.enterLine st).tracker.lastInterval = s.tracker.lastInterval ∧ (s.enterLine st).tracker.handoffs = s.tracker.handoffs ∧
    (s.enterLine st).tracker.marks = s.tracker.marks ∧ (s.enterLine st).tracker.misses = s.tracker.misses ∧
    (s.enterLine st).tracker.stretch = s.tracker.stretch ∧ (s.enterLine st).tracker.guard = s.tracker.guard ∧
    (s.enterLine st).map.gateOpen = s.map.gateOpen ∧ (s.enterLine st).plan.entries = s.plan.entries ∧
    (s.enterLine st).plan.counter = s.plan.counter ∧ (s.enterLine st).store = s.store ∧
    (s.enterLine st).seq.current = s.seq.current ∧ (s.enterLine st).seq.next = s.seq.next ∧
    (s.enterLine st).seq.clearPos = s.seq.clearPos ∧ (s.enterLine st).seq.strokeTimer = s.seq.strokeTimer ∧
    (s.enterLine st).seq.bladeStrobe = s.seq.bladeStrobe ∧ (s.enterLine st).seq.bladeHand = s.seq.bladeHand ∧
    (s.enterLine st).seq.bladeDepth = s.seq.bladeDepth ∧ (s.enterLine st).steam.sampleTimer = s.steam.sampleTimer ∧
    (s.enterLine st).steam.converting = s.steam.converting ∧ (s.enterLine st).dose = s.dose ∧
    (s.enterLine st).splice.rollA = s.splice.rollA ∧ (s.enterLine st).splice.rollB = s.splice.rollB ∧
    (s.enterLine st).splice.strobeTimer = s.splice.strobeTimer ∧ (s.enterLine st).splice.paste = s.splice.paste ∧
    (s.enterLine st).splice.cut = s.splice.cut ∧ (s.enterLine st).splice.counter = s.splice.counter ∧
    (s.enterLine st).free = s.free := by
  unfold State.enterLine
  split <;> simp

@[simp] theorem State.passOn_same (s : State) :
    (s.passOn).pending = s.pending ∧ (s.passOn).boot = s.boot ∧ (s.passOn).cfg = s.cfg ∧ (s.passOn).link.line = s.link.line ∧
    (s.passOn).link.haltWaiting = s.link.haltWaiting ∧ (s.passOn).link.haltOnLine = s.link.haltOnLine ∧
    (s.passOn).link.haltClosed = s.link.haltClosed ∧ (s.passOn).link.beaconWaiting = s.link.beaconWaiting ∧
    (s.passOn).link.beaconOnLine = s.link.beaconOnLine ∧ (s.passOn).link.generalFifo = s.link.generalFifo ∧
    (s.passOn).link.mismatches = s.link.mismatches ∧ (s.passOn).link.mismatchFrame = s.link.mismatchFrame ∧
    (s.passOn).link.beaconTimer = s.link.beaconTimer ∧ (s.passOn).events.refusedKind = s.events.refusedKind ∧
    (s.passOn).events.refusalCause = s.events.refusalCause ∧ (s.passOn).events.resetCause = s.events.resetCause ∧
    (s.passOn).line.peers = s.line.peers ∧ (s.passOn).line.setpoint = s.line.setpoint ∧ (s.passOn).line.vCmd = s.line.vCmd ∧
    (s.passOn).line.qIn = s.line.qIn ∧ (s.passOn).line.rampTimer = s.line.rampTimer ∧
    (s.passOn).line.driveTimer = s.line.driveTimer ∧ (s.passOn).line.haltOrigin = s.line.haltOrigin ∧
    (s.passOn).step0 = s.step0 ∧ (s.passOn).tracker.position = s.tracker.position ∧ (s.passOn).tracker.debt = s.tracker.debt ∧
    (s.passOn).tracker.web = s.tracker.web ∧ (s.passOn).tracker.speed = s.tracker.speed ∧
    (s.passOn).tracker.surface = s.tracker.surface ∧ (s.passOn).tracker.surfaceSpeed = s.tracker.surfaceSpeed ∧
    (s.passOn).tracker.lastMark = s.tracker.lastMark ∧ (s.passOn).tracker.lastInterval = s.tracker.lastInterval ∧
    (s.passOn).tracker.handoffs = s.tracker.handoffs ∧ (s.passOn).tracker.marks = s.tracker.marks ∧
    (s.passOn).tracker.misses = s.tracker.misses ∧ (s.passOn).tracker.stretch = s.tracker.stretch ∧
    (s.passOn).tracker.guard = s.tracker.guard ∧ (s.passOn).map.gateOpen = s.map.gateOpen ∧
    (s.passOn).plan.entries = s.plan.entries ∧ (s.passOn).plan.counter = s.plan.counter ∧ (s.passOn).store = s.store ∧
    (s.passOn).seq.current = s.seq.current ∧ (s.passOn).seq.next = s.seq.next ∧ (s.passOn).seq.clearPos = s.seq.clearPos ∧
    (s.passOn).seq.strokeTimer = s.seq.strokeTimer ∧ (s.passOn).seq.bladeStrobe = s.seq.bladeStrobe ∧
    (s.passOn).seq.bladeHand = s.seq.bladeHand ∧ (s.passOn).seq.bladeDepth = s.seq.bladeDepth ∧
    (s.passOn).steam.sampleTimer = s.steam.sampleTimer ∧ (s.passOn).steam.converting = s.steam.converting ∧
    (s.passOn).dose = s.dose ∧ (s.passOn).splice.rollA = s.splice.rollA ∧ (s.passOn).splice.rollB = s.splice.rollB ∧
    (s.passOn).splice.strobeTimer = s.splice.strobeTimer ∧ (s.passOn).splice.paste = s.splice.paste ∧
    (s.passOn).splice.cut = s.splice.cut ∧ (s.passOn).splice.counter = s.splice.counter ∧ (s.passOn).free = s.free := by
  unfold State.passOn
  split <;> (try split) <;> simp

@[simp] theorem State.haltLine_same (s : State) (o : Byte) :
    (s.haltLine o).pending = s.pending ∧ (s.haltLine o).boot = s.boot ∧ (s.haltLine o).cfg = s.cfg ∧
    (s.haltLine o).link.line = s.link.line ∧ (s.haltLine o).link.haltWaiting = s.link.haltWaiting ∧
    (s.haltLine o).link.haltOnLine = s.link.haltOnLine ∧ (s.haltLine o).link.haltClosed = s.link.haltClosed ∧
    (s.haltLine o).link.beaconWaiting = s.link.beaconWaiting ∧ (s.haltLine o).link.beaconOnLine = s.link.beaconOnLine ∧
    (s.haltLine o).link.generalFifo = s.link.generalFifo ∧ (s.haltLine o).link.mismatches = s.link.mismatches ∧
    (s.haltLine o).link.mismatchFrame = s.link.mismatchFrame ∧ (s.haltLine o).link.beaconTimer = s.link.beaconTimer ∧
    (s.haltLine o).events.refusedKind = s.events.refusedKind ∧ (s.haltLine o).events.refusalCause = s.events.refusalCause ∧
    (s.haltLine o).events.resetCause = s.events.resetCause ∧ (s.haltLine o).line.peers = s.line.peers ∧
    (s.haltLine o).line.setpoint = s.line.setpoint ∧ (s.haltLine o).line.vCmd = s.line.vCmd ∧
    (s.haltLine o).line.qIn = s.line.qIn ∧ (s.haltLine o).line.rampTimer = s.line.rampTimer ∧
    (s.haltLine o).line.driveTimer = s.line.driveTimer ∧ (s.haltLine o).step0 = s.step0 ∧
    (s.haltLine o).tracker.position = s.tracker.position ∧ (s.haltLine o).tracker.debt = s.tracker.debt ∧
    (s.haltLine o).tracker.web = s.tracker.web ∧ (s.haltLine o).tracker.speed = s.tracker.speed ∧
    (s.haltLine o).tracker.surface = s.tracker.surface ∧ (s.haltLine o).tracker.surfaceSpeed = s.tracker.surfaceSpeed ∧
    (s.haltLine o).tracker.lastMark = s.tracker.lastMark ∧ (s.haltLine o).tracker.lastInterval = s.tracker.lastInterval ∧
    (s.haltLine o).tracker.handoffs = s.tracker.handoffs ∧ (s.haltLine o).tracker.marks = s.tracker.marks ∧
    (s.haltLine o).tracker.misses = s.tracker.misses ∧ (s.haltLine o).tracker.stretch = s.tracker.stretch ∧
    (s.haltLine o).tracker.guard = s.tracker.guard ∧ (s.haltLine o).map.gateOpen = s.map.gateOpen ∧
    (s.haltLine o).plan.entries = s.plan.entries ∧ (s.haltLine o).plan.counter = s.plan.counter ∧
    (s.haltLine o).store = s.store ∧ (s.haltLine o).seq.current = s.seq.current ∧ (s.haltLine o).seq.next = s.seq.next ∧
    (s.haltLine o).seq.clearPos = s.seq.clearPos ∧ (s.haltLine o).seq.strokeTimer = s.seq.strokeTimer ∧
    (s.haltLine o).seq.bladeStrobe = s.seq.bladeStrobe ∧ (s.haltLine o).seq.bladeHand = s.seq.bladeHand ∧
    (s.haltLine o).seq.bladeDepth = s.seq.bladeDepth ∧ (s.haltLine o).steam.sampleTimer = s.steam.sampleTimer ∧
    (s.haltLine o).steam.converting = s.steam.converting ∧ (s.haltLine o).dose = s.dose ∧
    (s.haltLine o).splice.rollA = s.splice.rollA ∧ (s.haltLine o).splice.rollB = s.splice.rollB ∧
    (s.haltLine o).splice.strobeTimer = s.splice.strobeTimer ∧ (s.haltLine o).splice.paste = s.splice.paste ∧
    (s.haltLine o).splice.cut = s.splice.cut ∧ (s.haltLine o).splice.counter = s.splice.counter ∧ (s.haltLine o).free = s.free := by
  unfold State.haltLine
  split <;> simp

@[simp] theorem State.latch_same (s : State) (e : Event) :
    (s.latch e).pending = s.pending ∧ (s.latch e).boot = s.boot ∧ (s.latch e).cfg = s.cfg ∧
    (s.latch e).link.line = s.link.line ∧ (s.latch e).link.haltOnLine = s.link.haltOnLine ∧
    (s.latch e).link.haltClosed = s.link.haltClosed ∧ (s.latch e).link.beaconWaiting = s.link.beaconWaiting ∧
    (s.latch e).link.beaconOnLine = s.link.beaconOnLine ∧ (s.latch e).link.generalFifo = s.link.generalFifo ∧
    (s.latch e).link.mismatches = s.link.mismatches ∧ (s.latch e).link.mismatchFrame = s.link.mismatchFrame ∧
    (s.latch e).link.beaconTimer = s.link.beaconTimer ∧ (s.latch e).events.refusedKind = s.events.refusedKind ∧
    (s.latch e).events.refusalCause = s.events.refusalCause ∧ (s.latch e).events.resetCause = s.events.resetCause ∧
    (s.latch e).line.peers = s.line.peers ∧ (s.latch e).line.setpoint = s.line.setpoint ∧ (s.latch e).line.vCmd = s.line.vCmd ∧
    (s.latch e).line.qIn = s.line.qIn ∧ (s.latch e).line.rampTimer = s.line.rampTimer ∧
    (s.latch e).line.driveTimer = s.line.driveTimer ∧ (s.latch e).step0 = s.step0 ∧
    (s.latch e).tracker.position = s.tracker.position ∧ (s.latch e).tracker.debt = s.tracker.debt ∧
    (s.latch e).tracker.web = s.tracker.web ∧ (s.latch e).tracker.speed = s.tracker.speed ∧
    (s.latch e).tracker.surface = s.tracker.surface ∧ (s.latch e).tracker.surfaceSpeed = s.tracker.surfaceSpeed ∧
    (s.latch e).tracker.lastMark = s.tracker.lastMark ∧ (s.latch e).tracker.lastInterval = s.tracker.lastInterval ∧
    (s.latch e).tracker.handoffs = s.tracker.handoffs ∧ (s.latch e).tracker.marks = s.tracker.marks ∧
    (s.latch e).tracker.misses = s.tracker.misses ∧ (s.latch e).tracker.stretch = s.tracker.stretch ∧
    (s.latch e).tracker.guard = s.tracker.guard ∧ (s.latch e).map.gateOpen = s.map.gateOpen ∧
    (s.latch e).plan.entries = s.plan.entries ∧ (s.latch e).plan.counter = s.plan.counter ∧ (s.latch e).store = s.store ∧
    (s.latch e).seq.current = s.seq.current ∧ (s.latch e).seq.next = s.seq.next ∧ (s.latch e).seq.clearPos = s.seq.clearPos ∧
    (s.latch e).seq.strokeTimer = s.seq.strokeTimer ∧ (s.latch e).seq.bladeStrobe = s.seq.bladeStrobe ∧
    (s.latch e).seq.bladeHand = s.seq.bladeHand ∧ (s.latch e).seq.bladeDepth = s.seq.bladeDepth ∧
    (s.latch e).steam.sampleTimer = s.steam.sampleTimer ∧ (s.latch e).steam.converting = s.steam.converting ∧
    (s.latch e).dose = s.dose ∧ (s.latch e).splice.rollA = s.splice.rollA ∧ (s.latch e).splice.rollB = s.splice.rollB ∧
    (s.latch e).splice.strobeTimer = s.splice.strobeTimer ∧ (s.latch e).splice.paste = s.splice.paste ∧
    (s.latch e).splice.cut = s.splice.cut ∧ (s.latch e).splice.counter = s.splice.counter ∧ (s.latch e).free = s.free := by
  unfold State.latch
  split <;> simp

@[simp] theorem State.latchDuplicate_same (s : State) :
    (s.latchDuplicate).pending = s.pending ∧ (s.latchDuplicate).boot = s.boot ∧ (s.latchDuplicate).cfg = s.cfg ∧
    (s.latchDuplicate).link.line = s.link.line ∧ (s.latchDuplicate).link.haltOnLine = s.link.haltOnLine ∧
    (s.latchDuplicate).link.mismatches = s.link.mismatches ∧ (s.latchDuplicate).link.mismatchFrame = s.link.mismatchFrame ∧
    (s.latchDuplicate).link.beaconTimer = s.link.beaconTimer ∧ (s.latchDuplicate).events.refusedKind = s.events.refusedKind ∧
    (s.latchDuplicate).events.refusalCause = s.events.refusalCause ∧
    (s.latchDuplicate).events.resetCause = s.events.resetCause ∧ (s.latchDuplicate).line.peers = s.line.peers ∧
    (s.latchDuplicate).line.setpoint = s.line.setpoint ∧ (s.latchDuplicate).line.vCmd = s.line.vCmd ∧
    (s.latchDuplicate).line.qIn = s.line.qIn ∧ (s.latchDuplicate).line.rampTimer = s.line.rampTimer ∧
    (s.latchDuplicate).line.driveTimer = s.line.driveTimer ∧ (s.latchDuplicate).step0 = s.step0 ∧
    (s.latchDuplicate).tracker.position = s.tracker.position ∧ (s.latchDuplicate).tracker.debt = s.tracker.debt ∧
    (s.latchDuplicate).tracker.web = s.tracker.web ∧ (s.latchDuplicate).tracker.speed = s.tracker.speed ∧
    (s.latchDuplicate).tracker.surface = s.tracker.surface ∧ (s.latchDuplicate).tracker.surfaceSpeed = s.tracker.surfaceSpeed ∧
    (s.latchDuplicate).tracker.lastMark = s.tracker.lastMark ∧
    (s.latchDuplicate).tracker.lastInterval = s.tracker.lastInterval ∧
    (s.latchDuplicate).tracker.handoffs = s.tracker.handoffs ∧ (s.latchDuplicate).tracker.marks = s.tracker.marks ∧
    (s.latchDuplicate).tracker.misses = s.tracker.misses ∧ (s.latchDuplicate).tracker.stretch = s.tracker.stretch ∧
    (s.latchDuplicate).tracker.guard = s.tracker.guard ∧ (s.latchDuplicate).map.gateOpen = s.map.gateOpen ∧
    (s.latchDuplicate).plan.entries = s.plan.entries ∧ (s.latchDuplicate).plan.counter = s.plan.counter ∧
    (s.latchDuplicate).store = s.store ∧ (s.latchDuplicate).seq.current = s.seq.current ∧
    (s.latchDuplicate).seq.next = s.seq.next ∧ (s.latchDuplicate).seq.clearPos = s.seq.clearPos ∧
    (s.latchDuplicate).seq.strokeTimer = s.seq.strokeTimer ∧ (s.latchDuplicate).seq.bladeStrobe = s.seq.bladeStrobe ∧
    (s.latchDuplicate).seq.bladeHand = s.seq.bladeHand ∧ (s.latchDuplicate).seq.bladeDepth = s.seq.bladeDepth ∧
    (s.latchDuplicate).steam.sampleTimer = s.steam.sampleTimer ∧ (s.latchDuplicate).steam.converting = s.steam.converting ∧
    (s.latchDuplicate).dose = s.dose ∧ (s.latchDuplicate).splice.rollA = s.splice.rollA ∧
    (s.latchDuplicate).splice.rollB = s.splice.rollB ∧ (s.latchDuplicate).splice.strobeTimer = s.splice.strobeTimer ∧
    (s.latchDuplicate).splice.paste = s.splice.paste ∧ (s.latchDuplicate).splice.cut = s.splice.cut ∧
    (s.latchDuplicate).splice.counter = s.splice.counter ∧ (s.latchDuplicate).free = s.free := by
  simp [State.latchDuplicate]

@[simp] theorem State.feedStep_same (s : State) :
    (s.feedStep).pending = s.pending ∧ (s.feedStep).boot = s.boot ∧ (s.feedStep).cfg = s.cfg ∧ (s.feedStep).link = s.link ∧
    (s.feedStep).events = s.events ∧ (s.feedStep).line = s.line ∧ (s.feedStep).step1 = s.step1 ∧
    (s.feedStep).tracker = s.tracker ∧ (s.feedStep).map = s.map ∧ (s.feedStep).plan = s.plan ∧ (s.feedStep).store = s.store ∧
    (s.feedStep).seq = s.seq ∧ (s.feedStep).steam = s.steam ∧ (s.feedStep).dose = s.dose ∧ (s.feedStep).splice = s.splice ∧
    (s.feedStep).free = s.free := by
  unfold State.feedStep
  split <;> simp

@[simp] theorem State.followLocal_same (s : State) (old : State) :
    (State.followLocal old s).pending = s.pending ∧ (State.followLocal old s).boot = s.boot ∧
    (State.followLocal old s).cfg = s.cfg ∧ (State.followLocal old s).link = s.link ∧
    (State.followLocal old s).events = s.events ∧ (State.followLocal old s).line = s.line ∧
    (State.followLocal old s).tracker = s.tracker ∧ (State.followLocal old s).map = s.map ∧
    (State.followLocal old s).plan = s.plan ∧ (State.followLocal old s).store = s.store ∧
    (State.followLocal old s).seq = s.seq ∧ (State.followLocal old s).steam = s.steam ∧
    (State.followLocal old s).dose = s.dose ∧ (State.followLocal old s).splice.rollA = s.splice.rollA ∧
    (State.followLocal old s).splice.rollB = s.splice.rollB ∧ (State.followLocal old s).splice.state = s.splice.state ∧
    (State.followLocal old s).splice.rampTimer = s.splice.rampTimer ∧
    (State.followLocal old s).splice.matchTimer = s.splice.matchTimer ∧
    (State.followLocal old s).splice.matchTimeout = s.splice.matchTimeout ∧
    (State.followLocal old s).splice.strobeTimer = s.splice.strobeTimer ∧
    (State.followLocal old s).splice.paste = s.splice.paste ∧ (State.followLocal old s).splice.cut = s.splice.cut ∧
    (State.followLocal old s).splice.counter = s.splice.counter ∧ (State.followLocal old s).free = s.free := by
  unfold State.followLocal
  split <;> (try dsimp only) <;> (try split) <;> simp

@[simp] theorem State.superviseDrive_same (s : State) (old : State) :
    (State.superviseDrive old s).pending = s.pending ∧ (State.superviseDrive old s).boot = s.boot ∧
    (State.superviseDrive old s).cfg = s.cfg ∧ (State.superviseDrive old s).link = s.link ∧
    (State.superviseDrive old s).events = s.events ∧ (State.superviseDrive old s).line.peers = s.line.peers ∧
    (State.superviseDrive old s).line.setpoint = s.line.setpoint ∧ (State.superviseDrive old s).line.vCmd = s.line.vCmd ∧
    (State.superviseDrive old s).line.qIn = s.line.qIn ∧ (State.superviseDrive old s).line.rampTimer = s.line.rampTimer ∧
    (State.superviseDrive old s).line.state = s.line.state ∧ (State.superviseDrive old s).line.haltOrigin = s.line.haltOrigin ∧
    (State.superviseDrive old s).step0 = s.step0 ∧ (State.superviseDrive old s).step1 = s.step1 ∧
    (State.superviseDrive old s).tracker = s.tracker ∧ (State.superviseDrive old s).map = s.map ∧
    (State.superviseDrive old s).plan = s.plan ∧ (State.superviseDrive old s).store = s.store ∧
    (State.superviseDrive old s).seq = s.seq ∧ (State.superviseDrive old s).steam = s.steam ∧
    (State.superviseDrive old s).dose = s.dose ∧ (State.superviseDrive old s).splice = s.splice ∧
    (State.superviseDrive old s).free = s.free := by
  simp [State.superviseDrive]

@[simp] theorem State.superviseMatch_same (s : State) (old : State) :
    (State.superviseMatch old s).pending = s.pending ∧ (State.superviseMatch old s).boot = s.boot ∧
    (State.superviseMatch old s).cfg = s.cfg ∧ (State.superviseMatch old s).link = s.link ∧
    (State.superviseMatch old s).events = s.events ∧ (State.superviseMatch old s).line = s.line ∧
    (State.superviseMatch old s).step0 = s.step0 ∧ (State.superviseMatch old s).step1 = s.step1 ∧
    (State.superviseMatch old s).tracker = s.tracker ∧ (State.superviseMatch old s).map = s.map ∧
    (State.superviseMatch old s).plan = s.plan ∧ (State.superviseMatch old s).store = s.store ∧
    (State.superviseMatch old s).seq = s.seq ∧ (State.superviseMatch old s).steam = s.steam ∧
    (State.superviseMatch old s).dose = s.dose ∧ (State.superviseMatch old s).splice.rollA = s.splice.rollA ∧
    (State.superviseMatch old s).splice.rollB = s.splice.rollB ∧ (State.superviseMatch old s).splice.state = s.splice.state ∧
    (State.superviseMatch old s).splice.vNew = s.splice.vNew ∧
    (State.superviseMatch old s).splice.rampTimer = s.splice.rampTimer ∧
    (State.superviseMatch old s).splice.matchTimeout = s.splice.matchTimeout ∧
    (State.superviseMatch old s).splice.strobeTimer = s.splice.strobeTimer ∧
    (State.superviseMatch old s).splice.paste = s.splice.paste ∧ (State.superviseMatch old s).splice.cut = s.splice.cut ∧
    (State.superviseMatch old s).splice.counter = s.splice.counter ∧ (State.superviseMatch old s).free = s.free := by
  unfold State.superviseMatch
  split <;> simp

@[simp] theorem State.afterSpeeds_same (s : State) (old : State) :
    (State.afterSpeeds old s).pending = s.pending ∧ (State.afterSpeeds old s).boot = s.boot ∧
    (State.afterSpeeds old s).cfg = s.cfg ∧ (State.afterSpeeds old s).link = s.link ∧
    (State.afterSpeeds old s).events = s.events ∧ (State.afterSpeeds old s).line.peers = s.line.peers ∧
    (State.afterSpeeds old s).line.setpoint = s.line.setpoint ∧ (State.afterSpeeds old s).line.vCmd = s.line.vCmd ∧
    (State.afterSpeeds old s).line.qIn = s.line.qIn ∧ (State.afterSpeeds old s).line.rampTimer = s.line.rampTimer ∧
    (State.afterSpeeds old s).line.state = s.line.state ∧ (State.afterSpeeds old s).line.haltOrigin = s.line.haltOrigin ∧
    (State.afterSpeeds old s).tracker = s.tracker ∧ (State.afterSpeeds old s).map = s.map ∧
    (State.afterSpeeds old s).plan = s.plan ∧ (State.afterSpeeds old s).store = s.store ∧
    (State.afterSpeeds old s).seq = s.seq ∧ (State.afterSpeeds old s).steam = s.steam ∧
    (State.afterSpeeds old s).dose = s.dose ∧ (State.afterSpeeds old s).splice.rollA = s.splice.rollA ∧
    (State.afterSpeeds old s).splice.rollB = s.splice.rollB ∧ (State.afterSpeeds old s).splice.state = s.splice.state ∧
    (State.afterSpeeds old s).splice.rampTimer = s.splice.rampTimer ∧
    (State.afterSpeeds old s).splice.matchTimeout = s.splice.matchTimeout ∧
    (State.afterSpeeds old s).splice.strobeTimer = s.splice.strobeTimer ∧
    (State.afterSpeeds old s).splice.paste = s.splice.paste ∧ (State.afterSpeeds old s).splice.cut = s.splice.cut ∧
    (State.afterSpeeds old s).splice.counter = s.splice.counter ∧ (State.afterSpeeds old s).free = s.free := by
  simp [State.afterSpeeds]

@[simp] theorem State.retakeQIn_same (s : State) :
    (s.retakeQIn).pending = s.pending ∧ (s.retakeQIn).boot = s.boot ∧ (s.retakeQIn).cfg = s.cfg ∧ (s.retakeQIn).link = s.link ∧
    (s.retakeQIn).events = s.events ∧ (s.retakeQIn).line.peers = s.line.peers ∧ (s.retakeQIn).line.setpoint = s.line.setpoint ∧
    (s.retakeQIn).line.vCmd = s.line.vCmd ∧ (s.retakeQIn).line.rampTimer = s.line.rampTimer ∧
    (s.retakeQIn).line.driveTimer = s.line.driveTimer ∧ (s.retakeQIn).line.state = s.line.state ∧
    (s.retakeQIn).line.haltOrigin = s.line.haltOrigin ∧ (s.retakeQIn).step0 = s.step0 ∧ (s.retakeQIn).step1 = s.step1 ∧
    (s.retakeQIn).tracker = s.tracker ∧ (s.retakeQIn).map = s.map ∧ (s.retakeQIn).plan = s.plan ∧
    (s.retakeQIn).store = s.store ∧ (s.retakeQIn).seq = s.seq ∧ (s.retakeQIn).steam = s.steam ∧ (s.retakeQIn).dose = s.dose ∧
    (s.retakeQIn).splice = s.splice ∧ (s.retakeQIn).free = s.free := by
  unfold State.retakeQIn
  split <;> (try split) <;> (try split) <;> simp

@[simp] theorem State.requestLookup_same (s : State) (l : Lookup) :
    (s.requestLookup l).pending = s.pending ∧ (s.requestLookup l).boot = s.boot ∧ (s.requestLookup l).cfg = s.cfg ∧
    (s.requestLookup l).link = s.link ∧ (s.requestLookup l).events = s.events ∧ (s.requestLookup l).line = s.line ∧
    (s.requestLookup l).step0 = s.step0 ∧ (s.requestLookup l).step1 = s.step1 ∧ (s.requestLookup l).tracker = s.tracker ∧
    (s.requestLookup l).map = s.map ∧ (s.requestLookup l).plan = s.plan ∧ (s.requestLookup l).store.nv = s.store.nv ∧
    (s.requestLookup l).store.counter = s.store.counter ∧ (s.requestLookup l).store.table = s.store.table ∧
    (s.requestLookup l).store.buffer = s.store.buffer ∧ (s.requestLookup l).store.ops = s.store.ops ∧
    (s.requestLookup l).store.opTime = s.store.opTime ∧ (s.requestLookup l).seq = s.seq ∧ (s.requestLookup l).steam = s.steam ∧
    (s.requestLookup l).dose = s.dose ∧ (s.requestLookup l).splice = s.splice ∧ (s.requestLookup l).free = s.free := by
  simp [State.requestLookup]

@[simp] theorem State.settleNext_same (s : State) :
    (s.settleNext).pending = s.pending ∧ (s.settleNext).boot = s.boot ∧ (s.settleNext).cfg = s.cfg ∧
    (s.settleNext).link = s.link ∧ (s.settleNext).events = s.events ∧ (s.settleNext).line = s.line ∧
    (s.settleNext).step0 = s.step0 ∧ (s.settleNext).step1 = s.step1 ∧ (s.settleNext).tracker = s.tracker ∧
    (s.settleNext).map = s.map ∧ (s.settleNext).plan = s.plan ∧ (s.settleNext).store.nv = s.store.nv ∧
    (s.settleNext).store.counter = s.store.counter ∧ (s.settleNext).store.table = s.store.table ∧
    (s.settleNext).store.buffer = s.store.buffer ∧ (s.settleNext).store.ops = s.store.ops ∧
    (s.settleNext).store.opTime = s.store.opTime ∧ (s.settleNext).seq.state = s.seq.state ∧
    (s.settleNext).seq.current = s.seq.current ∧ (s.settleNext).seq.play = s.seq.play ∧
    (s.settleNext).seq.clearPos = s.seq.clearPos ∧ (s.settleNext).seq.strokeTimer = s.seq.strokeTimer ∧
    (s.settleNext).seq.bladeStrobe = s.seq.bladeStrobe ∧ (s.settleNext).seq.bladeHand = s.seq.bladeHand ∧
    (s.settleNext).seq.bladeDepth = s.seq.bladeDepth ∧ (s.settleNext).steam = s.steam ∧ (s.settleNext).dose = s.dose ∧
    (s.settleNext).splice = s.splice ∧ (s.settleNext).free = s.free := by
  unfold State.settleNext
  (repeat' split) <;> simp

@[simp] theorem State.startPlay_same (s : State) (c : Context) :
    (s.startPlay c).pending = s.pending ∧ (s.startPlay c).boot = s.boot ∧ (s.startPlay c).cfg = s.cfg ∧
    (s.startPlay c).link = s.link ∧ (s.startPlay c).events = s.events ∧ (s.startPlay c).line = s.line ∧
    (s.startPlay c).step0 = s.step0 ∧ (s.startPlay c).step1 = s.step1 ∧ (s.startPlay c).tracker = s.tracker ∧
    (s.startPlay c).map = s.map ∧ (s.startPlay c).plan = s.plan ∧ (s.startPlay c).store = s.store ∧
    (s.startPlay c).seq.current = s.seq.current ∧ (s.startPlay c).seq.next = s.seq.next ∧
    (s.startPlay c).seq.clearPos = s.seq.clearPos ∧ (s.startPlay c).seq.strokeTimer = s.seq.strokeTimer ∧
    (s.startPlay c).seq.bladeStrobe = s.seq.bladeStrobe ∧ (s.startPlay c).seq.bladeHand = s.seq.bladeHand ∧
    (s.startPlay c).seq.bladeDepth = s.seq.bladeDepth ∧ (s.startPlay c).steam = s.steam ∧ (s.startPlay c).dose = s.dose ∧
    (s.startPlay c).splice = s.splice ∧ (s.startPlay c).free = s.free := by
  simp [State.startPlay]

@[simp] theorem State.truncate_same (s : State) :
    (s.truncate).pending = s.pending ∧ (s.truncate).boot = s.boot ∧ (s.truncate).cfg = s.cfg ∧
    (s.truncate).link.line = s.link.line ∧ (s.truncate).link.haltWaiting = s.link.haltWaiting ∧
    (s.truncate).link.haltOnLine = s.link.haltOnLine ∧ (s.truncate).link.haltClosed = s.link.haltClosed ∧
    (s.truncate).link.beaconWaiting = s.link.beaconWaiting ∧ (s.truncate).link.beaconOnLine = s.link.beaconOnLine ∧
    (s.truncate).link.generalFifo = s.link.generalFifo ∧ (s.truncate).link.mismatches = s.link.mismatches ∧
    (s.truncate).link.mismatchFrame = s.link.mismatchFrame ∧ (s.truncate).link.beaconTimer = s.link.beaconTimer ∧
    (s.truncate).events.refusedKind = s.events.refusedKind ∧ (s.truncate).events.refusalCause = s.events.refusalCause ∧
    (s.truncate).events.resetCause = s.events.resetCause ∧ (s.truncate).line = s.line ∧ (s.truncate).step0 = s.step0 ∧
    (s.truncate).step1 = s.step1 ∧ (s.truncate).tracker.position = s.tracker.position ∧
    (s.truncate).tracker.debt = s.tracker.debt ∧ (s.truncate).tracker.web = s.tracker.web ∧
    (s.truncate).tracker.speed = s.tracker.speed ∧ (s.truncate).tracker.surface = s.tracker.surface ∧
    (s.truncate).tracker.surfaceSpeed = s.tracker.surfaceSpeed ∧ (s.truncate).tracker.lastMark = s.tracker.lastMark ∧
    (s.truncate).tracker.lastInterval = s.tracker.lastInterval ∧ (s.truncate).tracker.handoffs = s.tracker.handoffs ∧
    (s.truncate).tracker.marks = s.tracker.marks ∧ (s.truncate).tracker.misses = s.tracker.misses ∧
    (s.truncate).tracker.stretch = s.tracker.stretch ∧ (s.truncate).tracker.guard = s.tracker.guard ∧
    (s.truncate).map.gateOpen = s.map.gateOpen ∧ (s.truncate).plan.entries = s.plan.entries ∧
    (s.truncate).plan.counter = s.plan.counter ∧ (s.truncate).store = s.store ∧ (s.truncate).seq.current = s.seq.current ∧
    (s.truncate).seq.next = s.seq.next ∧ (s.truncate).seq.clearPos = s.seq.clearPos ∧
    (s.truncate).seq.strokeTimer = s.seq.strokeTimer ∧ (s.truncate).seq.bladeStrobe = s.seq.bladeStrobe ∧
    (s.truncate).seq.bladeHand = s.seq.bladeHand ∧ (s.truncate).seq.bladeDepth = s.seq.bladeDepth ∧
    (s.truncate).steam = s.steam ∧ (s.truncate).dose = s.dose ∧ (s.truncate).splice = s.splice ∧ (s.truncate).free = s.free := by
  unfold State.truncate
  split <;> simp

@[simp] theorem State.panelAtBlade_same (s : State) (p : Panel) (f : Feature) :
    (s.panelAtBlade p f).pending = s.pending ∧ (s.panelAtBlade p f).boot = s.boot ∧ (s.panelAtBlade p f).cfg = s.cfg ∧
    (s.panelAtBlade p f).link.line = s.link.line ∧ (s.panelAtBlade p f).link.haltWaiting = s.link.haltWaiting ∧
    (s.panelAtBlade p f).link.haltOnLine = s.link.haltOnLine ∧ (s.panelAtBlade p f).link.haltClosed = s.link.haltClosed ∧
    (s.panelAtBlade p f).link.beaconWaiting = s.link.beaconWaiting ∧
    (s.panelAtBlade p f).link.beaconOnLine = s.link.beaconOnLine ∧ (s.panelAtBlade p f).link.generalFifo = s.link.generalFifo ∧
    (s.panelAtBlade p f).link.mismatches = s.link.mismatches ∧ (s.panelAtBlade p f).link.mismatchFrame = s.link.mismatchFrame ∧
    (s.panelAtBlade p f).link.beaconTimer = s.link.beaconTimer ∧
    (s.panelAtBlade p f).events.refusedKind = s.events.refusedKind ∧
    (s.panelAtBlade p f).events.refusalCause = s.events.refusalCause ∧
    (s.panelAtBlade p f).events.resetCause = s.events.resetCause ∧ (s.panelAtBlade p f).line = s.line ∧
    (s.panelAtBlade p f).step0 = s.step0 ∧ (s.panelAtBlade p f).step1 = s.step1 ∧
    (s.panelAtBlade p f).tracker.position = s.tracker.position ∧ (s.panelAtBlade p f).tracker.debt = s.tracker.debt ∧
    (s.panelAtBlade p f).tracker.web = s.tracker.web ∧ (s.panelAtBlade p f).tracker.speed = s.tracker.speed ∧
    (s.panelAtBlade p f).tracker.surface = s.tracker.surface ∧
    (s.panelAtBlade p f).tracker.surfaceSpeed = s.tracker.surfaceSpeed ∧
    (s.panelAtBlade p f).tracker.lastMark = s.tracker.lastMark ∧
    (s.panelAtBlade p f).tracker.lastInterval = s.tracker.lastInterval ∧
    (s.panelAtBlade p f).tracker.handoffs = s.tracker.handoffs ∧ (s.panelAtBlade p f).tracker.marks = s.tracker.marks ∧
    (s.panelAtBlade p f).tracker.misses = s.tracker.misses ∧ (s.panelAtBlade p f).tracker.stretch = s.tracker.stretch ∧
    (s.panelAtBlade p f).tracker.guard = s.tracker.guard ∧ (s.panelAtBlade p f).map.gateOpen = s.map.gateOpen ∧
    (s.panelAtBlade p f).plan.entries = s.plan.entries ∧ (s.panelAtBlade p f).plan.counter = s.plan.counter ∧
    (s.panelAtBlade p f).store.nv = s.store.nv ∧ (s.panelAtBlade p f).store.counter = s.store.counter ∧
    (s.panelAtBlade p f).store.table = s.store.table ∧ (s.panelAtBlade p f).store.buffer = s.store.buffer ∧
    (s.panelAtBlade p f).store.ops = s.store.ops ∧ (s.panelAtBlade p f).store.opTime = s.store.opTime ∧
    (s.panelAtBlade p f).seq.clearPos = s.seq.clearPos ∧ (s.panelAtBlade p f).seq.strokeTimer = s.seq.strokeTimer ∧
    (s.panelAtBlade p f).seq.bladeStrobe = s.seq.bladeStrobe ∧ (s.panelAtBlade p f).seq.bladeHand = s.seq.bladeHand ∧
    (s.panelAtBlade p f).seq.bladeDepth = s.seq.bladeDepth ∧ (s.panelAtBlade p f).steam = s.steam ∧
    (s.panelAtBlade p f).dose = s.dose ∧ (s.panelAtBlade p f).splice = s.splice ∧ (s.panelAtBlade p f).free = s.free := by
  unfold State.panelAtBlade
  dsimp only
  split <;> (try split) <;> simp

@[simp] theorem State.spliceAtBlade_same (s : State) (e : Pos) :
    (s.spliceAtBlade e).pending = s.pending ∧ (s.spliceAtBlade e).boot = s.boot ∧ (s.spliceAtBlade e).cfg = s.cfg ∧
    (s.spliceAtBlade e).link.line = s.link.line ∧ (s.spliceAtBlade e).link.haltWaiting = s.link.haltWaiting ∧
    (s.spliceAtBlade e).link.haltOnLine = s.link.haltOnLine ∧ (s.spliceAtBlade e).link.haltClosed = s.link.haltClosed ∧
    (s.spliceAtBlade e).link.beaconWaiting = s.link.beaconWaiting ∧
    (s.spliceAtBlade e).link.beaconOnLine = s.link.beaconOnLine ∧ (s.spliceAtBlade e).link.generalFifo = s.link.generalFifo ∧
    (s.spliceAtBlade e).link.mismatches = s.link.mismatches ∧ (s.spliceAtBlade e).link.mismatchFrame = s.link.mismatchFrame ∧
    (s.spliceAtBlade e).link.beaconTimer = s.link.beaconTimer ∧ (s.spliceAtBlade e).events.refusedKind = s.events.refusedKind ∧
    (s.spliceAtBlade e).events.refusalCause = s.events.refusalCause ∧
    (s.spliceAtBlade e).events.resetCause = s.events.resetCause ∧ (s.spliceAtBlade e).line = s.line ∧
    (s.spliceAtBlade e).step0 = s.step0 ∧ (s.spliceAtBlade e).step1 = s.step1 ∧
    (s.spliceAtBlade e).tracker.position = s.tracker.position ∧ (s.spliceAtBlade e).tracker.debt = s.tracker.debt ∧
    (s.spliceAtBlade e).tracker.web = s.tracker.web ∧ (s.spliceAtBlade e).tracker.speed = s.tracker.speed ∧
    (s.spliceAtBlade e).tracker.surface = s.tracker.surface ∧
    (s.spliceAtBlade e).tracker.surfaceSpeed = s.tracker.surfaceSpeed ∧
    (s.spliceAtBlade e).tracker.lastMark = s.tracker.lastMark ∧
    (s.spliceAtBlade e).tracker.lastInterval = s.tracker.lastInterval ∧
    (s.spliceAtBlade e).tracker.handoffs = s.tracker.handoffs ∧ (s.spliceAtBlade e).tracker.marks = s.tracker.marks ∧
    (s.spliceAtBlade e).tracker.misses = s.tracker.misses ∧ (s.spliceAtBlade e).tracker.stretch = s.tracker.stretch ∧
    (s.spliceAtBlade e).tracker.guard = s.tracker.guard ∧ (s.spliceAtBlade e).map.gateOpen = s.map.gateOpen ∧
    (s.spliceAtBlade e).plan.entries = s.plan.entries ∧ (s.spliceAtBlade e).plan.counter = s.plan.counter ∧
    (s.spliceAtBlade e).store = s.store ∧ (s.spliceAtBlade e).seq.current = s.seq.current ∧
    (s.spliceAtBlade e).seq.next = s.seq.next ∧ (s.spliceAtBlade e).seq.strokeTimer = s.seq.strokeTimer ∧
    (s.spliceAtBlade e).seq.bladeStrobe = s.seq.bladeStrobe ∧ (s.spliceAtBlade e).seq.bladeHand = s.seq.bladeHand ∧
    (s.spliceAtBlade e).seq.bladeDepth = s.seq.bladeDepth ∧ (s.spliceAtBlade e).steam = s.steam ∧
    (s.spliceAtBlade e).dose = s.dose ∧ (s.spliceAtBlade e).splice = s.splice ∧ (s.spliceAtBlade e).free = s.free := by
  unfold State.spliceAtBlade
  dsimp only
  split <;> simp

@[simp] theorem State.atBlade_same (s : State) (f : Feature) :
    (s.atBlade f).pending = s.pending ∧ (s.atBlade f).boot = s.boot ∧ (s.atBlade f).cfg = s.cfg ∧
    (s.atBlade f).link.line = s.link.line ∧ (s.atBlade f).link.haltWaiting = s.link.haltWaiting ∧
    (s.atBlade f).link.haltOnLine = s.link.haltOnLine ∧ (s.atBlade f).link.haltClosed = s.link.haltClosed ∧
    (s.atBlade f).link.beaconWaiting = s.link.beaconWaiting ∧ (s.atBlade f).link.beaconOnLine = s.link.beaconOnLine ∧
    (s.atBlade f).link.generalFifo = s.link.generalFifo ∧ (s.atBlade f).link.mismatches = s.link.mismatches ∧
    (s.atBlade f).link.mismatchFrame = s.link.mismatchFrame ∧ (s.atBlade f).link.beaconTimer = s.link.beaconTimer ∧
    (s.atBlade f).events.refusedKind = s.events.refusedKind ∧ (s.atBlade f).events.refusalCause = s.events.refusalCause ∧
    (s.atBlade f).events.resetCause = s.events.resetCause ∧ (s.atBlade f).line = s.line ∧ (s.atBlade f).step0 = s.step0 ∧
    (s.atBlade f).step1 = s.step1 ∧ (s.atBlade f).tracker.position = s.tracker.position ∧
    (s.atBlade f).tracker.debt = s.tracker.debt ∧ (s.atBlade f).tracker.web = s.tracker.web ∧
    (s.atBlade f).tracker.speed = s.tracker.speed ∧ (s.atBlade f).tracker.surface = s.tracker.surface ∧
    (s.atBlade f).tracker.surfaceSpeed = s.tracker.surfaceSpeed ∧ (s.atBlade f).tracker.lastMark = s.tracker.lastMark ∧
    (s.atBlade f).tracker.lastInterval = s.tracker.lastInterval ∧ (s.atBlade f).tracker.handoffs = s.tracker.handoffs ∧
    (s.atBlade f).tracker.marks = s.tracker.marks ∧ (s.atBlade f).tracker.misses = s.tracker.misses ∧
    (s.atBlade f).tracker.stretch = s.tracker.stretch ∧ (s.atBlade f).tracker.guard = s.tracker.guard ∧
    (s.atBlade f).map.gateOpen = s.map.gateOpen ∧ (s.atBlade f).plan.entries = s.plan.entries ∧
    (s.atBlade f).plan.counter = s.plan.counter ∧ (s.atBlade f).store.nv = s.store.nv ∧
    (s.atBlade f).store.counter = s.store.counter ∧ (s.atBlade f).store.table = s.store.table ∧
    (s.atBlade f).store.buffer = s.store.buffer ∧ (s.atBlade f).store.ops = s.store.ops ∧
    (s.atBlade f).store.opTime = s.store.opTime ∧ (s.atBlade f).seq.strokeTimer = s.seq.strokeTimer ∧
    (s.atBlade f).seq.bladeStrobe = s.seq.bladeStrobe ∧ (s.atBlade f).seq.bladeHand = s.seq.bladeHand ∧
    (s.atBlade f).seq.bladeDepth = s.seq.bladeDepth ∧ (s.atBlade f).steam = s.steam ∧ (s.atBlade f).dose = s.dose ∧
    (s.atBlade f).splice = s.splice ∧ (s.atBlade f).free = s.free := by
  unfold State.atBlade
  split <;> (try split) <;> simp

@[simp] theorem State.askForPanel_same (s : State) (p : Panel) :
    (s.askForPanel p).pending = s.pending ∧ (s.askForPanel p).boot = s.boot ∧ (s.askForPanel p).cfg = s.cfg ∧
    (s.askForPanel p).link = s.link ∧ (s.askForPanel p).events = s.events ∧ (s.askForPanel p).line = s.line ∧
    (s.askForPanel p).step0 = s.step0 ∧ (s.askForPanel p).step1 = s.step1 ∧ (s.askForPanel p).tracker = s.tracker ∧
    (s.askForPanel p).map = s.map ∧ (s.askForPanel p).plan = s.plan ∧ (s.askForPanel p).store.nv = s.store.nv ∧
    (s.askForPanel p).store.counter = s.store.counter ∧ (s.askForPanel p).store.table = s.store.table ∧
    (s.askForPanel p).store.buffer = s.store.buffer ∧ (s.askForPanel p).store.ops = s.store.ops ∧
    (s.askForPanel p).store.opTime = s.store.opTime ∧ (s.askForPanel p).seq = s.seq ∧ (s.askForPanel p).steam = s.steam ∧
    (s.askForPanel p).dose = s.dose ∧ (s.askForPanel p).splice = s.splice ∧ (s.askForPanel p).free = s.free := by
  unfold State.askForPanel
  dsimp only
  split <;> split <;> simp

@[simp] theorem State.insertOrDiscard_same (s : State) (f : Feature) :
    (s.insertOrDiscard f).pending = s.pending ∧ (s.insertOrDiscard f).boot = s.boot ∧ (s.insertOrDiscard f).cfg = s.cfg ∧
    (s.insertOrDiscard f).link.line = s.link.line ∧ (s.insertOrDiscard f).link.haltOnLine = s.link.haltOnLine ∧
    (s.insertOrDiscard f).link.haltClosed = s.link.haltClosed ∧ (s.insertOrDiscard f).link.beaconWaiting = s.link.beaconWaiting ∧
    (s.insertOrDiscard f).link.beaconOnLine = s.link.beaconOnLine ∧ (s.insertOrDiscard f).link.generalFifo = s.link.generalFifo ∧
    (s.insertOrDiscard f).link.mismatches = s.link.mismatches ∧ (s.insertOrDiscard f).link.mismatchFrame = s.link.mismatchFrame ∧
    (s.insertOrDiscard f).link.beaconTimer = s.link.beaconTimer ∧ (s.insertOrDiscard f).events.refusedKind = s.events.refusedKind ∧
    (s.insertOrDiscard f).events.refusalCause = s.events.refusalCause ∧
    (s.insertOrDiscard f).events.resetCause = s.events.resetCause ∧ (s.insertOrDiscard f).line.peers = s.line.peers ∧
    (s.insertOrDiscard f).line.setpoint = s.line.setpoint ∧ (s.insertOrDiscard f).line.vCmd = s.line.vCmd ∧
    (s.insertOrDiscard f).line.qIn = s.line.qIn ∧ (s.insertOrDiscard f).line.rampTimer = s.line.rampTimer ∧
    (s.insertOrDiscard f).line.driveTimer = s.line.driveTimer ∧ (s.insertOrDiscard f).step0 = s.step0 ∧
    (s.insertOrDiscard f).tracker.position = s.tracker.position ∧ (s.insertOrDiscard f).tracker.debt = s.tracker.debt ∧
    (s.insertOrDiscard f).tracker.web = s.tracker.web ∧ (s.insertOrDiscard f).tracker.speed = s.tracker.speed ∧
    (s.insertOrDiscard f).tracker.surface = s.tracker.surface ∧ (s.insertOrDiscard f).tracker.surfaceSpeed = s.tracker.surfaceSpeed ∧
    (s.insertOrDiscard f).tracker.lastMark = s.tracker.lastMark ∧
    (s.insertOrDiscard f).tracker.lastInterval = s.tracker.lastInterval ∧
    (s.insertOrDiscard f).tracker.handoffs = s.tracker.handoffs ∧ (s.insertOrDiscard f).tracker.marks = s.tracker.marks ∧
    (s.insertOrDiscard f).tracker.misses = s.tracker.misses ∧ (s.insertOrDiscard f).tracker.stretch = s.tracker.stretch ∧
    (s.insertOrDiscard f).map.gateOpen = s.map.gateOpen ∧ (s.insertOrDiscard f).plan.entries = s.plan.entries ∧
    (s.insertOrDiscard f).plan.counter = s.plan.counter ∧ (s.insertOrDiscard f).store.nv = s.store.nv ∧
    (s.insertOrDiscard f).store.counter = s.store.counter ∧ (s.insertOrDiscard f).store.table = s.store.table ∧
    (s.insertOrDiscard f).store.buffer = s.store.buffer ∧ (s.insertOrDiscard f).store.ops = s.store.ops ∧
    (s.insertOrDiscard f).store.opTime = s.store.opTime ∧ (s.insertOrDiscard f).seq.current = s.seq.current ∧
    (s.insertOrDiscard f).seq.clearPos = s.seq.clearPos ∧ (s.insertOrDiscard f).seq.strokeTimer = s.seq.strokeTimer ∧
    (s.insertOrDiscard f).seq.bladeStrobe = s.seq.bladeStrobe ∧ (s.insertOrDiscard f).seq.bladeHand = s.seq.bladeHand ∧
    (s.insertOrDiscard f).seq.bladeDepth = s.seq.bladeDepth ∧ (s.insertOrDiscard f).steam.sampleTimer = s.steam.sampleTimer ∧
    (s.insertOrDiscard f).steam.converting = s.steam.converting ∧ (s.insertOrDiscard f).dose = s.dose ∧
    (s.insertOrDiscard f).splice.rollA = s.splice.rollA ∧ (s.insertOrDiscard f).splice.rollB = s.splice.rollB ∧
    (s.insertOrDiscard f).splice.strobeTimer = s.splice.strobeTimer ∧ (s.insertOrDiscard f).splice.paste = s.splice.paste ∧
    (s.insertOrDiscard f).splice.cut = s.splice.cut ∧ (s.insertOrDiscard f).splice.counter = s.splice.counter ∧
    (s.insertOrDiscard f).free = s.free := by
  unfold State.insertOrDiscard
  split <;> (try split) <;> (try dsimp only) <;> (try split) <;> simp

@[simp] theorem State.offerFeature_same (s : State) (f : Feature) :
    (s.offerFeature f).pending = s.pending ∧ (s.offerFeature f).boot = s.boot ∧ (s.offerFeature f).cfg = s.cfg ∧
    (s.offerFeature f).link.line = s.link.line ∧ (s.offerFeature f).link.haltOnLine = s.link.haltOnLine ∧
    (s.offerFeature f).link.haltClosed = s.link.haltClosed ∧ (s.offerFeature f).link.beaconWaiting = s.link.beaconWaiting ∧
    (s.offerFeature f).link.beaconOnLine = s.link.beaconOnLine ∧ (s.offerFeature f).link.generalFifo = s.link.generalFifo ∧
    (s.offerFeature f).link.mismatches = s.link.mismatches ∧ (s.offerFeature f).link.mismatchFrame = s.link.mismatchFrame ∧
    (s.offerFeature f).link.beaconTimer = s.link.beaconTimer ∧ (s.offerFeature f).events.refusedKind = s.events.refusedKind ∧
    (s.offerFeature f).events.refusalCause = s.events.refusalCause ∧
    (s.offerFeature f).events.resetCause = s.events.resetCause ∧ (s.offerFeature f).line.peers = s.line.peers ∧
    (s.offerFeature f).line.setpoint = s.line.setpoint ∧ (s.offerFeature f).line.vCmd = s.line.vCmd ∧
    (s.offerFeature f).line.qIn = s.line.qIn ∧ (s.offerFeature f).line.rampTimer = s.line.rampTimer ∧
    (s.offerFeature f).line.driveTimer = s.line.driveTimer ∧ (s.offerFeature f).step0 = s.step0 ∧
    (s.offerFeature f).tracker.position = s.tracker.position ∧ (s.offerFeature f).tracker.debt = s.tracker.debt ∧
    (s.offerFeature f).tracker.web = s.tracker.web ∧ (s.offerFeature f).tracker.speed = s.tracker.speed ∧
    (s.offerFeature f).tracker.surface = s.tracker.surface ∧ (s.offerFeature f).tracker.surfaceSpeed = s.tracker.surfaceSpeed ∧
    (s.offerFeature f).tracker.lastMark = s.tracker.lastMark ∧
    (s.offerFeature f).tracker.lastInterval = s.tracker.lastInterval ∧
    (s.offerFeature f).tracker.handoffs = s.tracker.handoffs ∧ (s.offerFeature f).tracker.marks = s.tracker.marks ∧
    (s.offerFeature f).tracker.misses = s.tracker.misses ∧ (s.offerFeature f).tracker.stretch = s.tracker.stretch ∧
    (s.offerFeature f).map.gateOpen = s.map.gateOpen ∧ (s.offerFeature f).plan.entries = s.plan.entries ∧
    (s.offerFeature f).plan.counter = s.plan.counter ∧ (s.offerFeature f).store.nv = s.store.nv ∧
    (s.offerFeature f).store.counter = s.store.counter ∧ (s.offerFeature f).store.table = s.store.table ∧
    (s.offerFeature f).store.buffer = s.store.buffer ∧ (s.offerFeature f).store.ops = s.store.ops ∧
    (s.offerFeature f).store.opTime = s.store.opTime ∧ (s.offerFeature f).seq.current = s.seq.current ∧
    (s.offerFeature f).seq.clearPos = s.seq.clearPos ∧ (s.offerFeature f).seq.strokeTimer = s.seq.strokeTimer ∧
    (s.offerFeature f).seq.bladeStrobe = s.seq.bladeStrobe ∧ (s.offerFeature f).seq.bladeHand = s.seq.bladeHand ∧
    (s.offerFeature f).seq.bladeDepth = s.seq.bladeDepth ∧ (s.offerFeature f).steam.sampleTimer = s.steam.sampleTimer ∧
    (s.offerFeature f).steam.converting = s.steam.converting ∧ (s.offerFeature f).dose = s.dose ∧
    (s.offerFeature f).splice.rollA = s.splice.rollA ∧ (s.offerFeature f).splice.rollB = s.splice.rollB ∧
    (s.offerFeature f).splice.strobeTimer = s.splice.strobeTimer ∧ (s.offerFeature f).splice.paste = s.splice.paste ∧
    (s.offerFeature f).splice.cut = s.splice.cut ∧ (s.offerFeature f).splice.counter = s.splice.counter ∧
    (s.offerFeature f).free = s.free := by
  unfold State.offerFeature
  dsimp only
  split <;> simp

@[simp] theorem State.updateStretch_same (s : State) (p : Pos) :
    (s.updateStretch p).pending = s.pending ∧ (s.updateStretch p).boot = s.boot ∧ (s.updateStretch p).cfg = s.cfg ∧
    (s.updateStretch p).link = s.link ∧ (s.updateStretch p).events.refusedKind = s.events.refusedKind ∧
    (s.updateStretch p).events.refusalCause = s.events.refusalCause ∧
    (s.updateStretch p).events.resetCause = s.events.resetCause ∧ (s.updateStretch p).line = s.line ∧
    (s.updateStretch p).step0 = s.step0 ∧ (s.updateStretch p).step1 = s.step1 ∧
    (s.updateStretch p).tracker.position = s.tracker.position ∧ (s.updateStretch p).tracker.debt = s.tracker.debt ∧
    (s.updateStretch p).tracker.web = s.tracker.web ∧ (s.updateStretch p).tracker.speed = s.tracker.speed ∧
    (s.updateStretch p).tracker.surface = s.tracker.surface ∧
    (s.updateStretch p).tracker.surfaceSpeed = s.tracker.surfaceSpeed ∧
    (s.updateStretch p).tracker.lastMark = s.tracker.lastMark ∧
    (s.updateStretch p).tracker.lastInterval = s.tracker.lastInterval ∧
    (s.updateStretch p).tracker.handoffs = s.tracker.handoffs ∧ (s.updateStretch p).tracker.marks = s.tracker.marks ∧
    (s.updateStretch p).tracker.misses = s.tracker.misses ∧ (s.updateStretch p).tracker.ref = s.tracker.ref ∧
    (s.updateStretch p).tracker.guard = s.tracker.guard ∧ (s.updateStretch p).map = s.map ∧ (s.updateStretch p).plan = s.plan ∧
    (s.updateStretch p).store = s.store ∧ (s.updateStretch p).seq = s.seq ∧ (s.updateStretch p).steam = s.steam ∧
    (s.updateStretch p).dose = s.dose ∧ (s.updateStretch p).splice = s.splice ∧ (s.updateStretch p).free = s.free := by
  unfold State.updateStretch
  split <;> (try dsimp only) <;> (try split) <;> simp

@[simp] theorem State.place_same (s : State) (p : Panel) (q : Pos) (k : Bool) :
    (s.place p q k).pending = s.pending ∧ (s.place p q k).boot = s.boot ∧ (s.place p q k).cfg = s.cfg ∧
    (s.place p q k).link.line = s.link.line ∧ (s.place p q k).link.haltOnLine = s.link.haltOnLine ∧
    (s.place p q k).link.haltClosed = s.link.haltClosed ∧ (s.place p q k).link.beaconWaiting = s.link.beaconWaiting ∧
    (s.place p q k).link.beaconOnLine = s.link.beaconOnLine ∧ (s.place p q k).link.generalFifo = s.link.generalFifo ∧
    (s.place p q k).link.mismatches = s.link.mismatches ∧ (s.place p q k).link.mismatchFrame = s.link.mismatchFrame ∧
    (s.place p q k).link.beaconTimer = s.link.beaconTimer ∧ (s.place p q k).events.refusedKind = s.events.refusedKind ∧
    (s.place p q k).events.refusalCause = s.events.refusalCause ∧ (s.place p q k).events.resetCause = s.events.resetCause ∧
    (s.place p q k).line.peers = s.line.peers ∧ (s.place p q k).line.setpoint = s.line.setpoint ∧
    (s.place p q k).line.vCmd = s.line.vCmd ∧ (s.place p q k).line.qIn = s.line.qIn ∧
    (s.place p q k).line.rampTimer = s.line.rampTimer ∧ (s.place p q k).line.driveTimer = s.line.driveTimer ∧
    (s.place p q k).step0 = s.step0 ∧ (s.place p q k).tracker.position = s.tracker.position ∧
    (s.place p q k).tracker.debt = s.tracker.debt ∧ (s.place p q k).tracker.web = s.tracker.web ∧
    (s.place p q k).tracker.speed = s.tracker.speed ∧ (s.place p q k).tracker.surface = s.tracker.surface ∧
    (s.place p q k).tracker.surfaceSpeed = s.tracker.surfaceSpeed ∧ (s.place p q k).tracker.lastMark = s.tracker.lastMark ∧
    (s.place p q k).tracker.lastInterval = s.tracker.lastInterval ∧ (s.place p q k).tracker.handoffs = s.tracker.handoffs ∧
    (s.place p q k).tracker.marks = s.tracker.marks ∧ (s.place p q k).tracker.misses = s.tracker.misses ∧
    (s.place p q k).map.gateOpen = s.map.gateOpen ∧ (s.place p q k).plan.entries = s.plan.entries ∧
    (s.place p q k).plan.counter = s.plan.counter ∧ (s.place p q k).store.nv = s.store.nv ∧
    (s.place p q k).store.counter = s.store.counter ∧ (s.place p q k).store.table = s.store.table ∧
    (s.place p q k).store.buffer = s.store.buffer ∧ (s.place p q k).store.ops = s.store.ops ∧
    (s.place p q k).store.opTime = s.store.opTime ∧ (s.place p q k).seq.current = s.seq.current ∧
    (s.place p q k).seq.clearPos = s.seq.clearPos ∧ (s.place p q k).seq.strokeTimer = s.seq.strokeTimer ∧
    (s.place p q k).seq.bladeStrobe = s.seq.bladeStrobe ∧ (s.place p q k).seq.bladeHand = s.seq.bladeHand ∧
    (s.place p q k).seq.bladeDepth = s.seq.bladeDepth ∧ (s.place p q k).steam.sampleTimer = s.steam.sampleTimer ∧
    (s.place p q k).steam.converting = s.steam.converting ∧ (s.place p q k).dose = s.dose ∧
    (s.place p q k).splice.rollA = s.splice.rollA ∧ (s.place p q k).splice.rollB = s.splice.rollB ∧
    (s.place p q k).splice.strobeTimer = s.splice.strobeTimer ∧ (s.place p q k).splice.paste = s.splice.paste ∧
    (s.place p q k).splice.cut = s.splice.cut ∧ (s.place p q k).splice.counter = s.splice.counter ∧
    (s.place p q k).free = s.free := by
  unfold State.place
  dsimp only
  split <;> simp

@[simp] theorem State.claim_same (s : State) (h : PendingHandoff) (q : Pos) :
    (s.claim h q).pending = s.pending ∧ (s.claim h q).boot = s.boot ∧ (s.claim h q).cfg = s.cfg ∧
    (s.claim h q).link.line = s.link.line ∧ (s.claim h q).link.haltOnLine = s.link.haltOnLine ∧
    (s.claim h q).link.haltClosed = s.link.haltClosed ∧ (s.claim h q).link.beaconWaiting = s.link.beaconWaiting ∧
    (s.claim h q).link.beaconOnLine = s.link.beaconOnLine ∧ (s.claim h q).link.generalFifo = s.link.generalFifo ∧
    (s.claim h q).link.mismatches = s.link.mismatches ∧ (s.claim h q).link.mismatchFrame = s.link.mismatchFrame ∧
    (s.claim h q).link.beaconTimer = s.link.beaconTimer ∧ (s.claim h q).events.refusedKind = s.events.refusedKind ∧
    (s.claim h q).events.refusalCause = s.events.refusalCause ∧ (s.claim h q).events.resetCause = s.events.resetCause ∧
    (s.claim h q).line.peers = s.line.peers ∧ (s.claim h q).line.setpoint = s.line.setpoint ∧
    (s.claim h q).line.vCmd = s.line.vCmd ∧ (s.claim h q).line.qIn = s.line.qIn ∧
    (s.claim h q).line.rampTimer = s.line.rampTimer ∧ (s.claim h q).line.driveTimer = s.line.driveTimer ∧
    (s.claim h q).step0 = s.step0 ∧ (s.claim h q).tracker.position = s.tracker.position ∧
    (s.claim h q).tracker.debt = s.tracker.debt ∧ (s.claim h q).tracker.web = s.tracker.web ∧
    (s.claim h q).tracker.speed = s.tracker.speed ∧ (s.claim h q).tracker.surface = s.tracker.surface ∧
    (s.claim h q).tracker.surfaceSpeed = s.tracker.surfaceSpeed ∧ (s.claim h q).tracker.lastMark = s.tracker.lastMark ∧
    (s.claim h q).tracker.lastInterval = s.tracker.lastInterval ∧ (s.claim h q).tracker.handoffs = s.tracker.handoffs ∧
    (s.claim h q).tracker.marks = s.tracker.marks ∧ (s.claim h q).map.gateOpen = s.map.gateOpen ∧
    (s.claim h q).plan.entries = s.plan.entries ∧ (s.claim h q).plan.counter = s.plan.counter ∧
    (s.claim h q).store.nv = s.store.nv ∧ (s.claim h q).store.counter = s.store.counter ∧
    (s.claim h q).store.table = s.store.table ∧ (s.claim h q).store.buffer = s.store.buffer ∧
    (s.claim h q).store.ops = s.store.ops ∧ (s.claim h q).store.opTime = s.store.opTime ∧
    (s.claim h q).seq.current = s.seq.current ∧ (s.claim h q).seq.clearPos = s.seq.clearPos ∧
    (s.claim h q).seq.strokeTimer = s.seq.strokeTimer ∧ (s.claim h q).seq.bladeStrobe = s.seq.bladeStrobe ∧
    (s.claim h q).seq.bladeHand = s.seq.bladeHand ∧ (s.claim h q).seq.bladeDepth = s.seq.bladeDepth ∧
    (s.claim h q).steam.sampleTimer = s.steam.sampleTimer ∧ (s.claim h q).steam.converting = s.steam.converting ∧
    (s.claim h q).dose = s.dose ∧ (s.claim h q).splice.rollA = s.splice.rollA ∧ (s.claim h q).splice.rollB = s.splice.rollB ∧
    (s.claim h q).splice.strobeTimer = s.splice.strobeTimer ∧ (s.claim h q).splice.paste = s.splice.paste ∧
    (s.claim h q).splice.cut = s.splice.cut ∧ (s.claim h q).splice.counter = s.splice.counter ∧ (s.claim h q).free = s.free := by
  simp [State.claim]

@[simp] theorem State.synthesize_same (s : State) (h : PendingHandoff) :
    (s.synthesize h).pending = s.pending ∧ (s.synthesize h).boot = s.boot ∧ (s.synthesize h).cfg = s.cfg ∧
    (s.synthesize h).link.line = s.link.line ∧ (s.synthesize h).link.haltOnLine = s.link.haltOnLine ∧
    (s.synthesize h).link.haltClosed = s.link.haltClosed ∧ (s.synthesize h).link.beaconWaiting = s.link.beaconWaiting ∧
    (s.synthesize h).link.beaconOnLine = s.link.beaconOnLine ∧ (s.synthesize h).link.generalFifo = s.link.generalFifo ∧
    (s.synthesize h).link.mismatches = s.link.mismatches ∧ (s.synthesize h).link.mismatchFrame = s.link.mismatchFrame ∧
    (s.synthesize h).link.beaconTimer = s.link.beaconTimer ∧ (s.synthesize h).events.refusedKind = s.events.refusedKind ∧
    (s.synthesize h).events.refusalCause = s.events.refusalCause ∧ (s.synthesize h).events.resetCause = s.events.resetCause ∧
    (s.synthesize h).line.peers = s.line.peers ∧ (s.synthesize h).line.setpoint = s.line.setpoint ∧
    (s.synthesize h).line.vCmd = s.line.vCmd ∧ (s.synthesize h).line.qIn = s.line.qIn ∧
    (s.synthesize h).line.rampTimer = s.line.rampTimer ∧ (s.synthesize h).line.driveTimer = s.line.driveTimer ∧
    (s.synthesize h).step0 = s.step0 ∧ (s.synthesize h).tracker.position = s.tracker.position ∧
    (s.synthesize h).tracker.debt = s.tracker.debt ∧ (s.synthesize h).tracker.web = s.tracker.web ∧
    (s.synthesize h).tracker.speed = s.tracker.speed ∧ (s.synthesize h).tracker.surface = s.tracker.surface ∧
    (s.synthesize h).tracker.surfaceSpeed = s.tracker.surfaceSpeed ∧ (s.synthesize h).tracker.lastMark = s.tracker.lastMark ∧
    (s.synthesize h).tracker.lastInterval = s.tracker.lastInterval ∧ (s.synthesize h).tracker.handoffs = s.tracker.handoffs ∧
    (s.synthesize h).tracker.marks = s.tracker.marks ∧ (s.synthesize h).map.gateOpen = s.map.gateOpen ∧
    (s.synthesize h).plan.entries = s.plan.entries ∧ (s.synthesize h).plan.counter = s.plan.counter ∧
    (s.synthesize h).store.nv = s.store.nv ∧ (s.synthesize h).store.counter = s.store.counter ∧
    (s.synthesize h).store.table = s.store.table ∧ (s.synthesize h).store.buffer = s.store.buffer ∧
    (s.synthesize h).store.ops = s.store.ops ∧ (s.synthesize h).store.opTime = s.store.opTime ∧
    (s.synthesize h).seq.current = s.seq.current ∧ (s.synthesize h).seq.clearPos = s.seq.clearPos ∧
    (s.synthesize h).seq.strokeTimer = s.seq.strokeTimer ∧ (s.synthesize h).seq.bladeStrobe = s.seq.bladeStrobe ∧
    (s.synthesize h).seq.bladeHand = s.seq.bladeHand ∧ (s.synthesize h).seq.bladeDepth = s.seq.bladeDepth ∧
    (s.synthesize h).steam.sampleTimer = s.steam.sampleTimer ∧ (s.synthesize h).steam.converting = s.steam.converting ∧
    (s.synthesize h).dose = s.dose ∧ (s.synthesize h).splice.rollA = s.splice.rollA ∧
    (s.synthesize h).splice.rollB = s.splice.rollB ∧ (s.synthesize h).splice.strobeTimer = s.splice.strobeTimer ∧
    (s.synthesize h).splice.paste = s.splice.paste ∧ (s.synthesize h).splice.cut = s.splice.cut ∧
    (s.synthesize h).splice.counter = s.splice.counter ∧ (s.synthesize h).free = s.free := by
  unfold State.synthesize
  dsimp only
  split <;> simp

@[simp] theorem State.expireHandoff_same (s : State) :
    (s.expireHandoff).pending = s.pending ∧ (s.expireHandoff).boot = s.boot ∧ (s.expireHandoff).cfg = s.cfg ∧
    (s.expireHandoff).link.line = s.link.line ∧ (s.expireHandoff).link.haltOnLine = s.link.haltOnLine ∧
    (s.expireHandoff).link.haltClosed = s.link.haltClosed ∧ (s.expireHandoff).link.beaconWaiting = s.link.beaconWaiting ∧
    (s.expireHandoff).link.beaconOnLine = s.link.beaconOnLine ∧ (s.expireHandoff).link.generalFifo = s.link.generalFifo ∧
    (s.expireHandoff).link.mismatches = s.link.mismatches ∧ (s.expireHandoff).link.mismatchFrame = s.link.mismatchFrame ∧
    (s.expireHandoff).link.beaconTimer = s.link.beaconTimer ∧ (s.expireHandoff).events.refusedKind = s.events.refusedKind ∧
    (s.expireHandoff).events.refusalCause = s.events.refusalCause ∧ (s.expireHandoff).events.resetCause = s.events.resetCause ∧
    (s.expireHandoff).line.peers = s.line.peers ∧ (s.expireHandoff).line.setpoint = s.line.setpoint ∧
    (s.expireHandoff).line.vCmd = s.line.vCmd ∧ (s.expireHandoff).line.qIn = s.line.qIn ∧
    (s.expireHandoff).line.rampTimer = s.line.rampTimer ∧ (s.expireHandoff).line.driveTimer = s.line.driveTimer ∧
    (s.expireHandoff).step0 = s.step0 ∧ (s.expireHandoff).tracker.position = s.tracker.position ∧
    (s.expireHandoff).tracker.debt = s.tracker.debt ∧ (s.expireHandoff).tracker.web = s.tracker.web ∧
    (s.expireHandoff).tracker.speed = s.tracker.speed ∧ (s.expireHandoff).tracker.surface = s.tracker.surface ∧
    (s.expireHandoff).tracker.surfaceSpeed = s.tracker.surfaceSpeed ∧ (s.expireHandoff).tracker.lastMark = s.tracker.lastMark ∧
    (s.expireHandoff).tracker.lastInterval = s.tracker.lastInterval ∧ (s.expireHandoff).tracker.marks = s.tracker.marks ∧
    (s.expireHandoff).map.gateOpen = s.map.gateOpen ∧ (s.expireHandoff).plan.entries = s.plan.entries ∧
    (s.expireHandoff).plan.counter = s.plan.counter ∧ (s.expireHandoff).store.nv = s.store.nv ∧
    (s.expireHandoff).store.counter = s.store.counter ∧ (s.expireHandoff).store.table = s.store.table ∧
    (s.expireHandoff).store.buffer = s.store.buffer ∧ (s.expireHandoff).store.ops = s.store.ops ∧
    (s.expireHandoff).store.opTime = s.store.opTime ∧ (s.expireHandoff).seq.current = s.seq.current ∧
    (s.expireHandoff).seq.clearPos = s.seq.clearPos ∧ (s.expireHandoff).seq.strokeTimer = s.seq.strokeTimer ∧
    (s.expireHandoff).seq.bladeStrobe = s.seq.bladeStrobe ∧ (s.expireHandoff).seq.bladeHand = s.seq.bladeHand ∧
    (s.expireHandoff).seq.bladeDepth = s.seq.bladeDepth ∧ (s.expireHandoff).steam.sampleTimer = s.steam.sampleTimer ∧
    (s.expireHandoff).steam.converting = s.steam.converting ∧ (s.expireHandoff).dose = s.dose ∧
    (s.expireHandoff).splice.rollA = s.splice.rollA ∧ (s.expireHandoff).splice.rollB = s.splice.rollB ∧
    (s.expireHandoff).splice.strobeTimer = s.splice.strobeTimer ∧ (s.expireHandoff).splice.paste = s.splice.paste ∧
    (s.expireHandoff).splice.cut = s.splice.cut ∧ (s.expireHandoff).splice.counter = s.splice.counter ∧
    (s.expireHandoff).free = s.free := by
  unfold State.expireHandoff
  split <;> simp

@[simp] theorem State.discardMark_same (s : State) :
    (s.discardMark).pending = s.pending ∧ (s.discardMark).boot = s.boot ∧ (s.discardMark).cfg = s.cfg ∧
    (s.discardMark).link = s.link ∧ (s.discardMark).events.refusedKind = s.events.refusedKind ∧
    (s.discardMark).events.refusalCause = s.events.refusalCause ∧ (s.discardMark).events.resetCause = s.events.resetCause ∧
    (s.discardMark).line = s.line ∧ (s.discardMark).step0 = s.step0 ∧ (s.discardMark).step1 = s.step1 ∧
    (s.discardMark).tracker.position = s.tracker.position ∧ (s.discardMark).tracker.debt = s.tracker.debt ∧
    (s.discardMark).tracker.web = s.tracker.web ∧ (s.discardMark).tracker.speed = s.tracker.speed ∧
    (s.discardMark).tracker.surface = s.tracker.surface ∧ (s.discardMark).tracker.surfaceSpeed = s.tracker.surfaceSpeed ∧
    (s.discardMark).tracker.lastMark = s.tracker.lastMark ∧ (s.discardMark).tracker.lastInterval = s.tracker.lastInterval ∧
    (s.discardMark).tracker.handoffs = s.tracker.handoffs ∧ (s.discardMark).tracker.misses = s.tracker.misses ∧
    (s.discardMark).tracker.stretch = s.tracker.stretch ∧ (s.discardMark).tracker.ref = s.tracker.ref ∧
    (s.discardMark).tracker.guard = s.tracker.guard ∧ (s.discardMark).map = s.map ∧ (s.discardMark).plan = s.plan ∧
    (s.discardMark).store = s.store ∧ (s.discardMark).seq = s.seq ∧ (s.discardMark).steam = s.steam ∧
    (s.discardMark).dose = s.dose ∧ (s.discardMark).splice = s.splice ∧ (s.discardMark).free = s.free := by
  unfold State.discardMark
  split <;> simp

@[simp] theorem State.exitHeld_same (s : State) (f : Feature) :
    (s.exitHeld f).pending = s.pending ∧ (s.exitHeld f).boot = s.boot ∧ (s.exitHeld f).cfg = s.cfg ∧
    (s.exitHeld f).link.line = s.link.line ∧ (s.exitHeld f).link.haltOnLine = s.link.haltOnLine ∧
    (s.exitHeld f).link.haltClosed = s.link.haltClosed ∧ (s.exitHeld f).link.beaconWaiting = s.link.beaconWaiting ∧
    (s.exitHeld f).link.beaconOnLine = s.link.beaconOnLine ∧ (s.exitHeld f).link.generalFifo = s.link.generalFifo ∧
    (s.exitHeld f).link.mismatches = s.link.mismatches ∧ (s.exitHeld f).link.mismatchFrame = s.link.mismatchFrame ∧
    (s.exitHeld f).link.beaconTimer = s.link.beaconTimer ∧ (s.exitHeld f).events.refusedKind = s.events.refusedKind ∧
    (s.exitHeld f).events.refusalCause = s.events.refusalCause ∧ (s.exitHeld f).events.resetCause = s.events.resetCause ∧
    (s.exitHeld f).line.peers = s.line.peers ∧ (s.exitHeld f).line.setpoint = s.line.setpoint ∧
    (s.exitHeld f).line.vCmd = s.line.vCmd ∧ (s.exitHeld f).line.qIn = s.line.qIn ∧
    (s.exitHeld f).line.rampTimer = s.line.rampTimer ∧ (s.exitHeld f).line.driveTimer = s.line.driveTimer ∧
    (s.exitHeld f).step0 = s.step0 ∧ (s.exitHeld f).tracker.position = s.tracker.position ∧
    (s.exitHeld f).tracker.debt = s.tracker.debt ∧ (s.exitHeld f).tracker.web = s.tracker.web ∧
    (s.exitHeld f).tracker.speed = s.tracker.speed ∧ (s.exitHeld f).tracker.surface = s.tracker.surface ∧
    (s.exitHeld f).tracker.surfaceSpeed = s.tracker.surfaceSpeed ∧ (s.exitHeld f).tracker.lastMark = s.tracker.lastMark ∧
    (s.exitHeld f).tracker.lastInterval = s.tracker.lastInterval ∧ (s.exitHeld f).tracker.handoffs = s.tracker.handoffs ∧
    (s.exitHeld f).tracker.marks = s.tracker.marks ∧ (s.exitHeld f).tracker.misses = s.tracker.misses ∧
    (s.exitHeld f).tracker.stretch = s.tracker.stretch ∧ (s.exitHeld f).tracker.guard = s.tracker.guard ∧
    (s.exitHeld f).plan.entries = s.plan.entries ∧ (s.exitHeld f).plan.counter = s.plan.counter ∧
    (s.exitHeld f).store = s.store ∧ (s.exitHeld f).seq.current = s.seq.current ∧ (s.exitHeld f).seq.next = s.seq.next ∧
    (s.exitHeld f).seq.clearPos = s.seq.clearPos ∧ (s.exitHeld f).seq.strokeTimer = s.seq.strokeTimer ∧
    (s.exitHeld f).seq.bladeStrobe = s.seq.bladeStrobe ∧ (s.exitHeld f).seq.bladeHand = s.seq.bladeHand ∧
    (s.exitHeld f).seq.bladeDepth = s.seq.bladeDepth ∧ (s.exitHeld f).steam.sampleTimer = s.steam.sampleTimer ∧
    (s.exitHeld f).steam.converting = s.steam.converting ∧ (s.exitHeld f).dose = s.dose ∧
    (s.exitHeld f).splice.rollA = s.splice.rollA ∧ (s.exitHeld f).splice.rollB = s.splice.rollB ∧
    (s.exitHeld f).splice.strobeTimer = s.splice.strobeTimer ∧ (s.exitHeld f).splice.paste = s.splice.paste ∧
    (s.exitHeld f).splice.cut = s.splice.cut ∧ (s.exitHeld f).splice.counter = s.splice.counter ∧ (s.exitHeld f).free = s.free := by
  unfold State.exitHeld
  split <;> (try split) <;> simp

@[simp] theorem State.takeHeld_same (s : State) (n : Nat) :
    (State.takeHeld n s).pending = s.pending ∧ (State.takeHeld n s).boot = s.boot ∧ (State.takeHeld n s).cfg = s.cfg ∧
    (State.takeHeld n s).link.line = s.link.line ∧ (State.takeHeld n s).link.haltOnLine = s.link.haltOnLine ∧
    (State.takeHeld n s).link.haltClosed = s.link.haltClosed ∧ (State.takeHeld n s).link.beaconWaiting = s.link.beaconWaiting ∧
    (State.takeHeld n s).link.beaconOnLine = s.link.beaconOnLine ∧ (State.takeHeld n s).link.generalFifo = s.link.generalFifo ∧
    (State.takeHeld n s).link.mismatches = s.link.mismatches ∧ (State.takeHeld n s).link.mismatchFrame = s.link.mismatchFrame ∧
    (State.takeHeld n s).link.beaconTimer = s.link.beaconTimer ∧
    (State.takeHeld n s).events.refusedKind = s.events.refusedKind ∧
    (State.takeHeld n s).events.refusalCause = s.events.refusalCause ∧
    (State.takeHeld n s).events.resetCause = s.events.resetCause ∧ (State.takeHeld n s).line.peers = s.line.peers ∧
    (State.takeHeld n s).line.setpoint = s.line.setpoint ∧ (State.takeHeld n s).line.vCmd = s.line.vCmd ∧
    (State.takeHeld n s).line.qIn = s.line.qIn ∧ (State.takeHeld n s).line.rampTimer = s.line.rampTimer ∧
    (State.takeHeld n s).line.driveTimer = s.line.driveTimer ∧ (State.takeHeld n s).step0 = s.step0 ∧
    (State.takeHeld n s).tracker.position = s.tracker.position ∧ (State.takeHeld n s).tracker.debt = s.tracker.debt ∧
    (State.takeHeld n s).tracker.web = s.tracker.web ∧ (State.takeHeld n s).tracker.speed = s.tracker.speed ∧
    (State.takeHeld n s).tracker.surface = s.tracker.surface ∧
    (State.takeHeld n s).tracker.surfaceSpeed = s.tracker.surfaceSpeed ∧
    (State.takeHeld n s).tracker.lastMark = s.tracker.lastMark ∧
    (State.takeHeld n s).tracker.lastInterval = s.tracker.lastInterval ∧
    (State.takeHeld n s).tracker.handoffs = s.tracker.handoffs ∧ (State.takeHeld n s).tracker.marks = s.tracker.marks ∧
    (State.takeHeld n s).tracker.misses = s.tracker.misses ∧ (State.takeHeld n s).tracker.stretch = s.tracker.stretch ∧
    (State.takeHeld n s).tracker.guard = s.tracker.guard ∧ (State.takeHeld n s).plan.entries = s.plan.entries ∧
    (State.takeHeld n s).plan.counter = s.plan.counter ∧ (State.takeHeld n s).store = s.store ∧
    (State.takeHeld n s).seq.current = s.seq.current ∧ (State.takeHeld n s).seq.next = s.seq.next ∧
    (State.takeHeld n s).seq.clearPos = s.seq.clearPos ∧ (State.takeHeld n s).seq.strokeTimer = s.seq.strokeTimer ∧
    (State.takeHeld n s).seq.bladeStrobe = s.seq.bladeStrobe ∧ (State.takeHeld n s).seq.bladeHand = s.seq.bladeHand ∧
    (State.takeHeld n s).seq.bladeDepth = s.seq.bladeDepth ∧ (State.takeHeld n s).steam.sampleTimer = s.steam.sampleTimer ∧
    (State.takeHeld n s).steam.converting = s.steam.converting ∧ (State.takeHeld n s).dose = s.dose ∧
    (State.takeHeld n s).splice.rollA = s.splice.rollA ∧ (State.takeHeld n s).splice.rollB = s.splice.rollB ∧
    (State.takeHeld n s).splice.strobeTimer = s.splice.strobeTimer ∧ (State.takeHeld n s).splice.paste = s.splice.paste ∧
    (State.takeHeld n s).splice.cut = s.splice.cut ∧ (State.takeHeld n s).splice.counter = s.splice.counter ∧
    (State.takeHeld n s).free = s.free := by
  induction n generalizing s with
  | zero => simp [State.takeHeld]
  | succ n ih =>
    unfold State.takeHeld
    split
    · split
      · simp
      · simp [ih]
    · simp

@[simp] theorem State.takeExits_same (s : State) :
    (s.takeExits).pending = s.pending ∧ (s.takeExits).boot = s.boot ∧ (s.takeExits).cfg = s.cfg ∧
    (s.takeExits).link.line = s.link.line ∧ (s.takeExits).link.haltOnLine = s.link.haltOnLine ∧
    (s.takeExits).link.haltClosed = s.link.haltClosed ∧ (s.takeExits).link.beaconWaiting = s.link.beaconWaiting ∧
    (s.takeExits).link.beaconOnLine = s.link.beaconOnLine ∧ (s.takeExits).link.generalFifo = s.link.generalFifo ∧
    (s.takeExits).link.mismatches = s.link.mismatches ∧ (s.takeExits).link.mismatchFrame = s.link.mismatchFrame ∧
    (s.takeExits).link.beaconTimer = s.link.beaconTimer ∧ (s.takeExits).events.refusedKind = s.events.refusedKind ∧
    (s.takeExits).events.refusalCause = s.events.refusalCause ∧ (s.takeExits).events.resetCause = s.events.resetCause ∧
    (s.takeExits).line.peers = s.line.peers ∧ (s.takeExits).line.setpoint = s.line.setpoint ∧
    (s.takeExits).line.vCmd = s.line.vCmd ∧ (s.takeExits).line.qIn = s.line.qIn ∧
    (s.takeExits).line.rampTimer = s.line.rampTimer ∧ (s.takeExits).line.driveTimer = s.line.driveTimer ∧
    (s.takeExits).step0 = s.step0 ∧ (s.takeExits).tracker.position = s.tracker.position ∧
    (s.takeExits).tracker.debt = s.tracker.debt ∧ (s.takeExits).tracker.web = s.tracker.web ∧
    (s.takeExits).tracker.speed = s.tracker.speed ∧ (s.takeExits).tracker.surface = s.tracker.surface ∧
    (s.takeExits).tracker.surfaceSpeed = s.tracker.surfaceSpeed ∧ (s.takeExits).tracker.lastMark = s.tracker.lastMark ∧
    (s.takeExits).tracker.lastInterval = s.tracker.lastInterval ∧ (s.takeExits).tracker.handoffs = s.tracker.handoffs ∧
    (s.takeExits).tracker.marks = s.tracker.marks ∧ (s.takeExits).tracker.misses = s.tracker.misses ∧
    (s.takeExits).tracker.stretch = s.tracker.stretch ∧ (s.takeExits).tracker.guard = s.tracker.guard ∧
    (s.takeExits).plan.entries = s.plan.entries ∧ (s.takeExits).plan.counter = s.plan.counter ∧ (s.takeExits).store = s.store ∧
    (s.takeExits).seq.current = s.seq.current ∧ (s.takeExits).seq.next = s.seq.next ∧
    (s.takeExits).seq.clearPos = s.seq.clearPos ∧ (s.takeExits).seq.strokeTimer = s.seq.strokeTimer ∧
    (s.takeExits).seq.bladeStrobe = s.seq.bladeStrobe ∧ (s.takeExits).seq.bladeHand = s.seq.bladeHand ∧
    (s.takeExits).seq.bladeDepth = s.seq.bladeDepth ∧ (s.takeExits).steam.sampleTimer = s.steam.sampleTimer ∧
    (s.takeExits).steam.converting = s.steam.converting ∧ (s.takeExits).dose = s.dose ∧
    (s.takeExits).splice.rollA = s.splice.rollA ∧ (s.takeExits).splice.rollB = s.splice.rollB ∧
    (s.takeExits).splice.strobeTimer = s.splice.strobeTimer ∧ (s.takeExits).splice.paste = s.splice.paste ∧
    (s.takeExits).splice.cut = s.splice.cut ∧ (s.takeExits).splice.counter = s.splice.counter ∧ (s.takeExits).free = s.free := by
  simp [State.takeExits]

@[simp] theorem State.drainOverdue_same (s : State) :
    (s.drainOverdue).pending = s.pending ∧ (s.drainOverdue).boot = s.boot ∧ (s.drainOverdue).cfg = s.cfg ∧
    (s.drainOverdue).link.line = s.link.line ∧ (s.drainOverdue).link.haltWaiting = s.link.haltWaiting ∧
    (s.drainOverdue).link.haltOnLine = s.link.haltOnLine ∧ (s.drainOverdue).link.haltClosed = s.link.haltClosed ∧
    (s.drainOverdue).link.beaconWaiting = s.link.beaconWaiting ∧ (s.drainOverdue).link.beaconOnLine = s.link.beaconOnLine ∧
    (s.drainOverdue).link.generalFifo = s.link.generalFifo ∧ (s.drainOverdue).link.mismatches = s.link.mismatches ∧
    (s.drainOverdue).link.mismatchFrame = s.link.mismatchFrame ∧ (s.drainOverdue).link.beaconTimer = s.link.beaconTimer ∧
    (s.drainOverdue).events = s.events ∧ (s.drainOverdue).line = s.line ∧ (s.drainOverdue).step0 = s.step0 ∧
    (s.drainOverdue).step1 = s.step1 ∧ (s.drainOverdue).tracker = s.tracker ∧ (s.drainOverdue).map.gateOpen = s.map.gateOpen ∧
    (s.drainOverdue).plan = s.plan ∧ (s.drainOverdue).store = s.store ∧ (s.drainOverdue).seq = s.seq ∧
    (s.drainOverdue).steam = s.steam ∧ (s.drainOverdue).dose = s.dose ∧ (s.drainOverdue).splice = s.splice ∧
    (s.drainOverdue).free = s.free := by
  unfold State.drainOverdue
  split <;> (try split) <;> simp

@[simp] theorem State.relast_same (s : State) (b : Bool) :
    (State.relast b s).pending = s.pending ∧ (State.relast b s).boot = s.boot ∧ (State.relast b s).cfg = s.cfg ∧
    (State.relast b s).link = s.link ∧ (State.relast b s).events = s.events ∧ (State.relast b s).line = s.line ∧
    (State.relast b s).step0 = s.step0 ∧ (State.relast b s).step1 = s.step1 ∧ (State.relast b s).tracker = s.tracker ∧
    (State.relast b s).plan = s.plan ∧ (State.relast b s).store = s.store ∧ (State.relast b s).seq = s.seq ∧
    (State.relast b s).steam = s.steam ∧ (State.relast b s).dose = s.dose ∧ (State.relast b s).splice = s.splice ∧
    (State.relast b s).free = s.free := by
  unfold State.relast
  split <;> (try split) <;> simp

@[simp] theorem State.spliceAtEntry_same (s : State) :
    (s.spliceAtEntry).pending = s.pending ∧ (s.spliceAtEntry).boot = s.boot ∧ (s.spliceAtEntry).cfg = s.cfg ∧
    (s.spliceAtEntry).link.line = s.link.line ∧ (s.spliceAtEntry).link.haltWaiting = s.link.haltWaiting ∧
    (s.spliceAtEntry).link.haltOnLine = s.link.haltOnLine ∧ (s.spliceAtEntry).link.haltClosed = s.link.haltClosed ∧
    (s.spliceAtEntry).link.beaconWaiting = s.link.beaconWaiting ∧ (s.spliceAtEntry).link.beaconOnLine = s.link.beaconOnLine ∧
    (s.spliceAtEntry).link.generalFifo = s.link.generalFifo ∧ (s.spliceAtEntry).link.mismatches = s.link.mismatches ∧
    (s.spliceAtEntry).link.mismatchFrame = s.link.mismatchFrame ∧ (s.spliceAtEntry).link.beaconTimer = s.link.beaconTimer ∧
    (s.spliceAtEntry).events.refusedKind = s.events.refusedKind ∧
    (s.spliceAtEntry).events.refusalCause = s.events.refusalCause ∧ (s.spliceAtEntry).events.resetCause = s.events.resetCause ∧
    (s.spliceAtEntry).line = s.line ∧ (s.spliceAtEntry).step0 = s.step0 ∧ (s.spliceAtEntry).step1 = s.step1 ∧
    (s.spliceAtEntry).tracker.position = s.tracker.position ∧ (s.spliceAtEntry).tracker.debt = s.tracker.debt ∧
    (s.spliceAtEntry).tracker.web = s.tracker.web ∧ (s.spliceAtEntry).tracker.speed = s.tracker.speed ∧
    (s.spliceAtEntry).tracker.surface = s.tracker.surface ∧ (s.spliceAtEntry).tracker.surfaceSpeed = s.tracker.surfaceSpeed ∧
    (s.spliceAtEntry).tracker.lastMark = s.tracker.lastMark ∧ (s.spliceAtEntry).tracker.lastInterval = s.tracker.lastInterval ∧
    (s.spliceAtEntry).tracker.handoffs = s.tracker.handoffs ∧ (s.spliceAtEntry).tracker.marks = s.tracker.marks ∧
    (s.spliceAtEntry).tracker.misses = s.tracker.misses ∧ (s.spliceAtEntry).tracker.stretch = s.tracker.stretch ∧
    (s.spliceAtEntry).tracker.guard = s.tracker.guard ∧ (s.spliceAtEntry).map.gateOpen = s.map.gateOpen ∧
    (s.spliceAtEntry).plan.counter = s.plan.counter ∧ (s.spliceAtEntry).store = s.store ∧ (s.spliceAtEntry).seq = s.seq ∧
    (s.spliceAtEntry).steam = s.steam ∧ (s.spliceAtEntry).dose = s.dose ∧ (s.spliceAtEntry).splice = s.splice ∧
    (s.spliceAtEntry).free = s.free := by
  unfold State.spliceAtEntry
  (repeat' split) <;> simp

@[simp] theorem State.takeEntry_same (s : State) :
    (s.takeEntry).pending = s.pending ∧ (s.takeEntry).boot = s.boot ∧ (s.takeEntry).cfg = s.cfg ∧
    (s.takeEntry).link.line = s.link.line ∧ (s.takeEntry).link.haltWaiting = s.link.haltWaiting ∧
    (s.takeEntry).link.haltOnLine = s.link.haltOnLine ∧ (s.takeEntry).link.haltClosed = s.link.haltClosed ∧
    (s.takeEntry).link.beaconWaiting = s.link.beaconWaiting ∧ (s.takeEntry).link.beaconOnLine = s.link.beaconOnLine ∧
    (s.takeEntry).link.generalFifo = s.link.generalFifo ∧ (s.takeEntry).link.mismatches = s.link.mismatches ∧
    (s.takeEntry).link.mismatchFrame = s.link.mismatchFrame ∧ (s.takeEntry).link.beaconTimer = s.link.beaconTimer ∧
    (s.takeEntry).events.refusedKind = s.events.refusedKind ∧ (s.takeEntry).events.refusalCause = s.events.refusalCause ∧
    (s.takeEntry).events.resetCause = s.events.resetCause ∧ (s.takeEntry).line = s.line ∧ (s.takeEntry).step0 = s.step0 ∧
    (s.takeEntry).step1 = s.step1 ∧ (s.takeEntry).tracker.position = s.tracker.position ∧
    (s.takeEntry).tracker.debt = s.tracker.debt ∧ (s.takeEntry).tracker.web = s.tracker.web ∧
    (s.takeEntry).tracker.speed = s.tracker.speed ∧ (s.takeEntry).tracker.surface = s.tracker.surface ∧
    (s.takeEntry).tracker.surfaceSpeed = s.tracker.surfaceSpeed ∧ (s.takeEntry).tracker.lastMark = s.tracker.lastMark ∧
    (s.takeEntry).tracker.lastInterval = s.tracker.lastInterval ∧ (s.takeEntry).tracker.handoffs = s.tracker.handoffs ∧
    (s.takeEntry).tracker.marks = s.tracker.marks ∧ (s.takeEntry).tracker.misses = s.tracker.misses ∧
    (s.takeEntry).tracker.stretch = s.tracker.stretch ∧ (s.takeEntry).tracker.guard = s.tracker.guard ∧
    (s.takeEntry).map.gateOpen = s.map.gateOpen ∧ (s.takeEntry).plan.counter = s.plan.counter ∧ (s.takeEntry).store = s.store ∧
    (s.takeEntry).seq = s.seq ∧ (s.takeEntry).steam = s.steam ∧ (s.takeEntry).dose = s.dose ∧ (s.takeEntry).splice = s.splice ∧
    (s.takeEntry).free = s.free := by
  unfold State.takeEntry
  split <;> simp

@[simp] theorem State.judge_same (s : State) (g : Segment) :
    (s.judge g).pending = s.pending ∧ (s.judge g).boot = s.boot ∧ (s.judge g).cfg = s.cfg ∧
    (s.judge g).link.line = s.link.line ∧ (s.judge g).link.haltWaiting = s.link.haltWaiting ∧
    (s.judge g).link.haltOnLine = s.link.haltOnLine ∧ (s.judge g).link.haltClosed = s.link.haltClosed ∧
    (s.judge g).link.beaconWaiting = s.link.beaconWaiting ∧ (s.judge g).link.beaconOnLine = s.link.beaconOnLine ∧
    (s.judge g).link.generalFifo = s.link.generalFifo ∧ (s.judge g).link.mismatches = s.link.mismatches ∧
    (s.judge g).link.mismatchFrame = s.link.mismatchFrame ∧ (s.judge g).link.beaconTimer = s.link.beaconTimer ∧
    (s.judge g).events.refusedKind = s.events.refusedKind ∧ (s.judge g).events.refusalCause = s.events.refusalCause ∧
    (s.judge g).events.resetCause = s.events.resetCause ∧ (s.judge g).line = s.line ∧ (s.judge g).step0 = s.step0 ∧
    (s.judge g).step1 = s.step1 ∧ (s.judge g).tracker.position = s.tracker.position ∧
    (s.judge g).tracker.debt = s.tracker.debt ∧ (s.judge g).tracker.web = s.tracker.web ∧
    (s.judge g).tracker.speed = s.tracker.speed ∧ (s.judge g).tracker.surface = s.tracker.surface ∧
    (s.judge g).tracker.surfaceSpeed = s.tracker.surfaceSpeed ∧ (s.judge g).tracker.lastMark = s.tracker.lastMark ∧
    (s.judge g).tracker.lastInterval = s.tracker.lastInterval ∧ (s.judge g).tracker.handoffs = s.tracker.handoffs ∧
    (s.judge g).tracker.marks = s.tracker.marks ∧ (s.judge g).tracker.misses = s.tracker.misses ∧
    (s.judge g).tracker.stretch = s.tracker.stretch ∧ (s.judge g).tracker.guard = s.tracker.guard ∧
    (s.judge g).map.gateOpen = s.map.gateOpen ∧ (s.judge g).plan.entries = s.plan.entries ∧
    (s.judge g).plan.counter = s.plan.counter ∧ (s.judge g).store = s.store ∧ (s.judge g).seq = s.seq ∧
    (s.judge g).steam = s.steam ∧ (s.judge g).dose.nextBoundary = s.dose.nextBoundary ∧ (s.judge g).dose.timer = s.dose.timer ∧
    (s.judge g).splice = s.splice ∧ (s.judge g).free = s.free := by
  unfold State.judge
  dsimp only
  split <;> simp

@[simp] theorem State.judgeAll_same (s : State) (n : Nat) :
    (State.judgeAll n s).pending = s.pending ∧ (State.judgeAll n s).boot = s.boot ∧ (State.judgeAll n s).cfg = s.cfg ∧
    (State.judgeAll n s).link.line = s.link.line ∧ (State.judgeAll n s).link.haltWaiting = s.link.haltWaiting ∧
    (State.judgeAll n s).link.haltOnLine = s.link.haltOnLine ∧ (State.judgeAll n s).link.haltClosed = s.link.haltClosed ∧
    (State.judgeAll n s).link.beaconWaiting = s.link.beaconWaiting ∧
    (State.judgeAll n s).link.beaconOnLine = s.link.beaconOnLine ∧ (State.judgeAll n s).link.generalFifo = s.link.generalFifo ∧
    (State.judgeAll n s).link.mismatches = s.link.mismatches ∧ (State.judgeAll n s).link.mismatchFrame = s.link.mismatchFrame ∧
    (State.judgeAll n s).link.beaconTimer = s.link.beaconTimer ∧
    (State.judgeAll n s).events.refusedKind = s.events.refusedKind ∧
    (State.judgeAll n s).events.refusalCause = s.events.refusalCause ∧
    (State.judgeAll n s).events.resetCause = s.events.resetCause ∧ (State.judgeAll n s).line = s.line ∧
    (State.judgeAll n s).step0 = s.step0 ∧ (State.judgeAll n s).step1 = s.step1 ∧
    (State.judgeAll n s).tracker.position = s.tracker.position ∧ (State.judgeAll n s).tracker.debt = s.tracker.debt ∧
    (State.judgeAll n s).tracker.web = s.tracker.web ∧ (State.judgeAll n s).tracker.speed = s.tracker.speed ∧
    (State.judgeAll n s).tracker.surface = s.tracker.surface ∧
    (State.judgeAll n s).tracker.surfaceSpeed = s.tracker.surfaceSpeed ∧
    (State.judgeAll n s).tracker.lastMark = s.tracker.lastMark ∧
    (State.judgeAll n s).tracker.lastInterval = s.tracker.lastInterval ∧
    (State.judgeAll n s).tracker.handoffs = s.tracker.handoffs ∧ (State.judgeAll n s).tracker.marks = s.tracker.marks ∧
    (State.judgeAll n s).tracker.misses = s.tracker.misses ∧ (State.judgeAll n s).tracker.stretch = s.tracker.stretch ∧
    (State.judgeAll n s).tracker.guard = s.tracker.guard ∧ (State.judgeAll n s).map.gateOpen = s.map.gateOpen ∧
    (State.judgeAll n s).plan.entries = s.plan.entries ∧ (State.judgeAll n s).plan.counter = s.plan.counter ∧
    (State.judgeAll n s).store = s.store ∧ (State.judgeAll n s).seq = s.seq ∧ (State.judgeAll n s).steam = s.steam ∧
    (State.judgeAll n s).dose.nextBoundary = s.dose.nextBoundary ∧ (State.judgeAll n s).dose.timer = s.dose.timer ∧
    (State.judgeAll n s).splice = s.splice ∧ (State.judgeAll n s).free = s.free := by
  induction n generalizing s with
  | zero => simp [State.judgeAll]
  | succ n ih =>
    unfold State.judgeAll
    split
    · simp [ih]
    · simp

end Sys2Proof.Machine
end

