-- ==== Sys2Proof/Laws/Operations.lean ====
section
/-! SUPPORT. What the shared operations can do, said once: the read port, the array at a reset, the panel given up at the blade, the
last station, the insertion of a PANEL. -/

namespace Sys2Proof.Machine

/-! ### The read port (R108, R112 to R114) -/

theorem Store.lookup_congr {a b : Store} (ht : a.table = b.table) (hn : a.nv = b.nv) (id : Nat) : a.lookup id = b.lookup id := by
  unfold Store.lookup Store.validSlot Store.slotOf Store.cell Store.record
  rw [ht, hn]

theorem Store.serve_sequencer {st : Store} {l : Lookup} (h : l.requester ≠ .webMap) :
    st.serve l =
      { st with
        serving :=
          some
            { lookup := l, found := st.lookup l.id
              time := 10 + 2 * ((st.lookup l.id).map fun p => p.entries.length).getD 0 } } := by
  unfold Store.serve serviceTime
  cases hr : l.requester <;> cases hf : st.lookup l.id <;> simp_all

theorem Store.serve_webMap {st : Store} {l : Lookup} (h : l.requester = .webMap) :
    st.serve l = { st with serving := some { lookup := l, found := st.lookup l.id, time := 10 } } := by
  simp [Store.serve, serviceTime, h]

/-- Everything the end of a lookup can do. -/
theorem Store.endService_wentOn (st : Store) : st.wentOn st.endService := by
  refine ⟨fun op rest hp ho => ?_, fun h => ?_⟩
  · unfold Store.endService Store.beginOp Store.portGoOn
    cases op <;>
      by_cases hs : st.seqWaiting = [] <;> by_cases hm : st.mapWaiting = [] <;>
      simp [hp, ho, hs, hm, Store.waiting, Store.setCell, Store.setRecord, opDuration, Store.cell, Store.record, Vector.getElem_set] <;>
      intro j hj <;> simp [Fin.ext_iff] at hj <;> omega
  · have hb : st.endService = Store.portGoOn { st with serving := none } := by
      unfold Store.endService Store.beginOp
      rcases h with ⟨hp, ho⟩ | hp <;> simp [*]
    rw [hb]
    unfold Store.portGoOn
    refine ⟨fun l rest hs hl => ?_, fun l rest hs hm hl => ?_, fun hs hm => ?_⟩
    · have hc := Store.lookup_congr (a := { st with serving := none, seqWaiting := rest }) (b := st) rfl rfl l.id
      rcases h with ⟨hp, ho⟩ | hp <;> simp [Store.waiting, Store.serveNext, hs, hp, Store.serve_sequencer hl] at hc ⊢ <;> simp [hc]
    · have hc := Store.lookup_congr (a := { st with serving := none, mapWaiting := rest }) (b := st) rfl rfl l.id
      rcases h with ⟨hp, ho⟩ | hp <;> simp [Store.waiting, Store.serveNext, hs, hm, hp, Store.serve_webMap hl] at hc ⊢ <;> simp [hc]
    · rcases h with ⟨hp, ho⟩ | hp <;> simp [Store.waiting, hs, hm, hp]

theorem Store.request_sequencer {st : Store} {l : Lookup} (h : l.requester ≠ .webMap) :
    st.request l = Store.portGoOn { st with seqWaiting := st.seqWaiting ++ [l] } := by
  unfold Store.request
  cases hr : l.requester <;> simp_all

theorem Store.request_webMap {st : Store} {l : Lookup} (h : l.requester = .webMap) :
    st.request l = Store.portGoOn { st with mapWaiting := st.mapWaiting ++ [l] } := by
  simp [Store.request, h]

/-- Everything a request of the Sequencer's can do. -/
theorem Store.request_asked_sequencer (st : Store) (l : Lookup) (hl : l.requester ≠ .webMap) : st.asked (st.request l) [l] [] := by
  rw [Store.request_sequencer hl]
  unfold Store.portGoOn
  refine ⟨by simp, fun h => ?_, fun _ hs hp => ?_, fun hs hp hq hm => ⟨fun k hk => ?_, by simp⟩⟩
  · cases hs : st.serving <;> rcases h with h | h | h <;> simp_all [Store.waiting]
  · simp [hs, hp, Store.waiting]
  · have hc := Store.lookup_congr (a := { st with seqWaiting := [] }) (b := st) rfl rfl l.id
    simp only [List.cons.injEq, and_true] at hk
    subst hk
    simp [hs, hp, hq, hm, Store.waiting, Store.serveNext, Store.serve_sequencer hl] at hc ⊢
    simp [hc]

/-- Everything a request of the Web Map's can do. -/
theorem Store.request_asked_webMap (st : Store) (m : Lookup) (hm : m.requester = .webMap) : st.asked (st.request m) [] [m] := by
  rw [Store.request_webMap hm]
  unfold Store.portGoOn
  refine ⟨by simp, fun h => ?_, fun _ hs hp => ?_, fun hs hp hq hw => ⟨by simp, fun k _ hk => ?_⟩⟩
  · cases hs : st.serving <;> rcases h with h | h | h <;> simp_all [Store.waiting]
  · simp [hs, hp, Store.waiting]
  · have hc := Store.lookup_congr (a := { st with mapWaiting := [] }) (b := st) rfl rfl m.id
    simp only [List.cons.injEq, and_true] at hk
    subst hk
    simp [hs, hp, hq, hw, Store.waiting, Store.serveNext, Store.serve_webMap hm] at hc ⊢
    simp [hc]

/-- Everything the two requests of one insertion can do. -/
theorem Store.request_asked_both (st : Store) (l m : Lookup) (hl : l.requester ≠ .webMap) (hm : m.requester = .webMap) :
    st.asked ((st.request l).request m) [l] [m] := by
  obtain ⟨-, h1, h2, h3⟩ := Store.request_asked_sequencer st l hl
  obtain ⟨-, k1, k2, k3⟩ := Store.request_asked_webMap (st.request l) m hm
  refine ⟨by simp, fun h => ?_, fun _ hs hp => ?_, fun hs hp hq hw => ⟨fun k hk => ?_, by simp⟩⟩
  · have e := h1 h
    rw [k1 (by rw [e]; exact h), e]
    simp
  · have e := h2 (by simp) hs hp
    rw [k1 (by rw [e]; simp), e]
    simp
  · have e := (h3 hs hp hq hw).1 k hk
    rw [k1 (by rw [e]; simp), e]
    simp

/-! ### The array at a reset (R116 to R118) -/

theorem Store.cell_congr {a b : Store} (h : a.nv = b.nv) (i : Fin 32) : a.cell i = b.cell i := by
  unfold Store.cell
  rw [h]

theorem Store.validSlot_valid {st : Store} {id : Nat} {j : Fin 32} (h : st.validSlot id = some j) :
    (st.record j).state = .valid ∧ (st.record j).id = some id := by
  simpa using List.find?_some h

/-- The slots a stopped program leaves. -/
theorem Store.tearProgram_cell (st : Store) (i : Fin 32) (p : Pattern) (w : NvTear) (j : Fin 32) :
    (st.tearProgram i p w).cell j =
      if w.completed = true ∧ w.oldRetired = true ∧ st.validSlot p.id = some j then
        (if i = j then
          some { pattern := p, version := st.nextVersion, marker := w.completed, checkGood := w.completed, retired := true }
        else (st.cell j).map fun r => { r with retired := true })
      else if i = j then
        some { pattern := p, version := st.nextVersion, marker := w.completed, checkGood := w.completed, retired := false }
      else st.cell j := by
  let n := st.setCell i
    (some { pattern := p, version := st.nextVersion, marker := w.completed, checkGood := w.completed, retired := false })
  have e : (st.tearProgram i p w).cell j =
      (if w.completed && w.oldRetired then
        match st.validSlot p.id with
        | some k => n.setCell k ((n.cell k).map fun r => { r with retired := true })
        | none => n
      else n).cell j := Store.cell_congr rfl j
  rw [e]
  cases hc : w.completed <;> cases hr : w.oldRetired <;> cases hv : st.validSlot p.id <;> simp [n, hc]
  rename_i k
  by_cases hk : k = j
  · subst hk
    by_cases hi : i = k <;> simp [hi]
  · simp [hk]

theorem Store.tearProgram_counter (st : Store) (i : Fin 32) (p : Pattern) (w : NvTear) :
    (st.tearProgram i p w).counter = st.counter ∨ (st.tearProgram i p w).counter = some st.nextVersion ∨
      (st.tearProgram i p w).counter = none := by
  unfold Store.tearProgram
  cases w.counter <;> simp

/-- Everything stopping the array can do to it. -/
theorem State.stopArray_arrayKept (s : State) : s.arrayKept s.stopArray := by
  refine ⟨fun hp hm => ?_, fun i rest hp hm => ?_, fun i p rest ho => ⟨fun h => ?_, fun h => ?_⟩, fun i rest hp ho => ?_⟩
  · simp [State.stopArray, hp, hm]
  · simp only [State.stopArray, hp, hm, Store.setCell_cell]
    refine ⟨rfl, by simp, fun j hj => ?_⟩
    simp [Ne.symm hj]
  · rcases h with h | h | h <;> simp [State.stopArray, Store.tearOp, ho, h]
  · have e : s.stopArray.store = s.store.tearProgram i p (Config.nvTear s.free) := by simp [State.stopArray, Store.tearOp, h, ho]
    rw [e]
    generalize Config.nvTear s.free = w
    refine ⟨?_, s.store.tearProgram_counter i p w, fun j hj => ?_⟩
    · rw [Store.tearProgram_cell]
      by_cases hw : w.completed = true ∧ w.oldRetired = true ∧ s.store.validSlot p.id = some i
      · have hv := (Store.validSlot_valid hw.2.2).1
        simp [hw, NvRecord.complete, hv]
      · rw [if_neg hw]
        cases w.completed <;> simp [NvRecord.complete]
    · rw [Store.tearProgram_cell, Store.tearProgram_cell]
      by_cases hw : w.completed = true ∧ w.oldRetired = true ∧ s.store.validSlot p.id = some j
      · obtain ⟨hc, hr, hv⟩ := hw
        simp [hc, hr, hv, Store.validSlot_valid hv, hj, hj.symm, NvRecord.complete]
      · simp [hw, Ne.symm hj]
  · cases hq : s.store.phase with
    | none => exact absurd hq hp
    | some q =>
      have ht : s.store.tearOp (Config.nvTear s.free) =
          if (Config.nvTear s.free).eraseLeftWhole then s.store
          else s.store.setCell i ((s.store.cell i).map fun r => { r with checkGood := false }) := by
        cases q <;> simp [Store.tearOp, hq, ho]
      simp only [State.stopArray, hq, ht]
      split
      · simp
      · refine ⟨rfl, fun j hj => ?_, .inr (by simp)⟩
        simp [Ne.symm hj]

/-! ### The panel given up at the blade (R78, R86, R130, R137) -/

theorem modifyFirst_map {α β : Type} (p : α → Bool) (f : α → α) (g : α → β) (h : ∀ x, p x = true → g (f x) = g x) (l : List α) :
    (modifyFirst p f l).map g = l.map g := by
  induction l with
  | nil => rfl
  | cons x xs ih => by_cases hx : p x = true <;> simp [modifyFirst, hx, h, ih]

theorem Feature.mapPanel_isPanel (f : Feature) (c : RejectCause) (n : Nat) :
    (f.mapPanel fun q => q.withCause c).isPanel n = f.isPanel n := by
  obtain ⟨b, e, o, r⟩ := f
  cases b with
  | panel p => cases hc : p.cause <;> simp [Feature.mapPanel, Feature.isPanel, Panel.withCause, hc]
  | splice m a => rfl

/-- The record of every number after a cause has been set on the first PANEL of `n`. -/
theorem panel_find_withCause (n m : Nat) (c : RejectCause) (l : List Feature) :
    ((modifyFirst (fun f => f.isPanel n) (fun f => f.mapPanel fun q => q.withCause c) l).find? fun f => f.isPanel m).bind Feature.panel? =
      ((l.find? fun f => f.isPanel m).bind Feature.panel?).map fun q => if m = n then q.withCause c else q := by
  induction l with
  | nil => rfl
  | cons x xs ih =>
    obtain ⟨b, e, o, r⟩ := x
    cases b with
    | splice k a => simpa [modifyFirst, Feature.isPanel] using ih
    | panel p =>
      by_cases hn : p.number = n
      · by_cases hm : p.number = m
        · cases hc : p.cause <;>
            simp [modifyFirst, Feature.isPanel, Feature.mapPanel, Feature.panel?, Panel.withCause, hc, ← hn, ← hm]
        · have hnm : m ≠ n := fun h => hm (by rw [hn, h])
          cases hc : p.cause <;>
            simp [modifyFirst, Feature.isPanel, Feature.mapPanel, Panel.withCause, hc, hn, Ne.symm hnm, hnm]
      · by_cases hm : p.number = m
        · have hnm : m ≠ n := fun h => hn (by rw [hm, h])
          simp [modifyFirst, Feature.isPanel, Feature.panel?, hm, hnm]
        · simpa [modifyFirst, Feature.isPanel, hn, hm] using ih

theorem EventLatch.set_has (l : EventLatch) (e : Event) : (l.set e).has e = true := by
  cases e <;> simp [EventLatch.set, EventLatch.has, Event.bit, Event.priority]

theorem State.planAfter_kept (s t : State) (n : Nat) (c : RejectCause) (h : t.plan = s.planAfter n c) : s.planKept t := by
  unfold State.planAfter at h
  split at h
  · rename_i p hp
    split at h
    · exact .inr ⟨by simp_all, p, c, hp, by simp_all, h⟩
    · exact .inl h
  · exact .inl h

/-- Everything giving up the current panel at the blade can do. -/
theorem State.abandonPanel_givesUpPanel (s : State) (d : Context) (k : RejectCause) (h : s.seq.current = some d) :
    s.givesUpPanel (s.abandonPanel k) d.panel k := by
  cases hp : s.panel? d.panel with
  | some q =>
    cases hc : q.cause with
    | some c =>
      have e : s.abandonPanel k = { s with seq := { s.seq with state := .runout, play := none } } := by
        simp [State.abandonPanel, h, State.condemn, State.setCause, hp, hc]
      have w : ({ q with cause := some (q.cause.getD k) } : Panel) = q := by rw [hc]; exact hc ▸ rfl
      refine ⟨⟨fun p hq => ?_, fun hn => by simp [hp] at hn⟩, by rw [e], fun m _ => by rw [e]; rfl, .inl (by rw [e]),
        fun p hq => ?_, fun hn => by simp [hp] at hn, by rw [e]⟩ <;> obtain rfl : q = p := by simpa [hp] using hq
      · rw [w, e]; exact ⟨hp, rfl⟩
      · rw [e]; exact ⟨rfl, by simp [hc]⟩
    | none =>
      have e : s.abandonPanel k =
          { s with
            plan := s.planAfter d.panel k
            map := { s.map with features := modifyFirst (fun f => f.isPanel d.panel) (fun f => f.mapPanel fun q => q.withCause k) s.map.features }
            tracker := { s.tracker with ref := rejectRef s.tracker.ref d.panel }
            seq := { s.seq with state := .runout, play := none } } := by
        simp [State.abandonPanel, h, State.condemn, State.setCause, hp, hc]
      have hr (m : Nat) : (s.abandonPanel k).panel? m = (s.panel? m).map fun q => if m = d.panel then q.withCause k else q := by
        rw [e]; exact panel_find_withCause _ _ _ _
      refine ⟨⟨fun p hq => ?_, fun hn => by simp [hp] at hn⟩, ?_, fun m hm => by simp [hr, hm], ?_, fun p hq => ?_,
        fun hn => by simp [hp] at hn, by rw [e]⟩
      · obtain rfl : q = p := by simpa [hp] using hq
        exact ⟨by simp [hr, hp, Panel.withCause, hc], by rw [e]⟩
      · rw [e]
        refine modifyFirst_map _ _ _ (fun x _ => ?_) _
        obtain ⟨b, e, o, r⟩ := x
        cases b <;> rfl
      · exact s.planAfter_kept _ d.panel k (by rw [e])
      · obtain rfl : q = p := by simpa [hp] using hq
        rw [e]; exact ⟨rfl, by simp [hc, rejectRef]⟩
  | none =>
    have e : s.abandonPanel k =
        { s.noticeOf d.panel k with seq := { (s.noticeOf d.panel k).seq with state := .runout, play := none } } := by
      simp [State.abandonPanel, h, State.condemn, hp]
    have hk : s.planKept (s.abandonPanel k) := by
      cases hl : s.isLast
      · exact s.planAfter_kept _ d.panel k (by simp [e, State.noticeOf, hl])
      · exact .inl (by simp [e, State.noticeOf, State.rejectNotice, hl, State.flag])
    refine ⟨⟨fun p hq => by simp [hp] at hq, fun _ => ?_⟩, ?_, ?_, hk, fun p hq => by simp [hp] at hq, fun _ => ?_, ?_⟩ <;>
      cases hl : s.isLast <;> cases hd : s.events.has .duplicateIndex <;> by_cases hf : s.link.handoffFifo.length < 8 <;>
        simp_all [State.noticeOf, State.rejectNotice, State.handoffRoom, State.flag, State.pushHandoff, State.panel?, EventLatch.set_has]
/-! ### The last station (R81, R82) -/

/-- The gate after the exits of a list: as its last PANEL directs. -/
theorem State.gateAfter_foldl (s : State) (fs : List Feature) (gate : Bool) :
    fs.foldl s.gateAfter gate =
      if s.cfg.rejectGate then (((fs.filterMap Feature.panel?).getLast?).map fun p => p.cause.isSome).getD gate else gate := by
  induction fs generalizing gate with
  | nil => simp
  | cons f fs ih =>
    rw [List.foldl_cons, ih]
    unfold State.gateAfter
    cases hg : s.cfg.rejectGate
    · simp
    · obtain ⟨body, e, o, r⟩ := f
      cases body with
      | splice n a => simp [Feature.panel?]
      | panel p =>
        cases h : (fs.filterMap Feature.panel?).getLast? <;> simp [Feature.panel?, List.getLast?_cons, h]

/-- Everything that follows the last station's becoming and ceasing to be. -/
theorem State.relast_lastFollowed (s t : State) (hm : t.map = s.map) (hg : t.cfg = s.cfg) :
    s.lastFollowed (State.relast s.isLast t) := by
  have hl : (State.relast s.isLast t).isLast = t.isLast := by
    unfold State.isLast
    simp
  have hp : (s.map.features.filter fun f => f.overdue).filterMap Feature.panel? =
      s.map.features.filterMap fun f => if f.overdue then f.panel? else none := by
    rw [List.filterMap_filter]
  unfold State.lastFollowed
  rw [hl]
  cases h : t.isLast <;> cases k : s.isLast <;> cases hr : s.cfg.rejectGate <;>
    simp [State.relast, h, hm, State.gateAfter_foldl, hg, hp, hr]

/-! ### An insertion (R75 to R77, R132 to R136) -/

theorem find?_insertFeature (f : Feature) (P : Feature → Bool) (l : List Feature) :
    ((insertFeature f l).find? P = l.find? P ∧ (P f = true → l.find? P ≠ none)) ∨ (P f = true ∧ (insertFeature f l).find? P = some f) ∨
      (P f = false ∧ (insertFeature f l).find? P = l.find? P) := by
  induction l with
  | nil => cases h : P f <;> simp [insertFeature, h]
  | cons x xs ih =>
    unfold insertFeature
    split
    · cases h : P x <;> simp [h] at ih ⊢
      exact ih
    · cases h : P f <;> simp [h, List.find?_cons]

@[simp] theorem State.askForPanel_map (s : State) (p : Panel) : (s.askForPanel p).map = s.map ∧ (s.askForPanel p).seq = s.seq ∧
    (s.askForPanel p).cfg = s.cfg := by
  unfold State.askForPanel State.requestLookup
  refine ⟨?_, ?_, ?_⟩ <;> (dsimp only; split <;> split <;> rfl)

/-- Everything the requests of an insertion can do to the store. -/
theorem State.askForPanel_asked (s : State) (p : Panel) (hd : p.dose = .pending ↔ p.pattern ≠ 0 ∧ s.cfg.zones ≠ []) :
    s.store.asked (s.askForPanel p).store
      (if s.cfg.blade = true ∧ p.pattern ≠ 0 then [{ requester := .insertion, panel := p.number, id := p.pattern }] else [])
      (if p.pattern ≠ 0 ∧ (p.nominal = none ∨ s.cfg.zones ≠ []) then
        [{ requester := .webMap, panel := p.number, id := p.pattern }]
      else []) := by
  have hm : (decide (p.pattern ≠ 0) && (p.nominal.isNone || decide (p.dose = .pending))) =
      decide (p.pattern ≠ 0 ∧ (p.nominal = none ∨ s.cfg.zones ≠ [])) := by
    by_cases hz : p.pattern = 0 <;> by_cases hn : p.nominal = none <;> simp [hz, hn, hd]
  have hb : (s.cfg.blade && decide (p.pattern ≠ 0)) = decide (s.cfg.blade = true ∧ p.pattern ≠ 0) := by
    by_cases hz : p.pattern = 0 <;> simp [hz]
  unfold State.askForPanel State.requestLookup
  simp only [hm, hb, decide_eq_true_eq]
  by_cases h1 : s.cfg.blade = true ∧ p.pattern ≠ 0 <;> by_cases h2 : p.pattern ≠ 0 ∧ (p.nominal = none ∨ s.cfg.zones ≠ [])
  · rw [if_pos h1, if_pos h2, if_pos h1, if_pos h2]
    exact Store.request_asked_both _ _ _ (show Requester.insertion ≠ .webMap by decide) rfl
  · rw [if_pos h1, if_neg h2, if_pos h1, if_neg h2]
    exact Store.request_asked_sequencer _ _ (show Requester.insertion ≠ .webMap by decide)
  · rw [if_neg h1, if_pos h2, if_neg h1, if_pos h2]
    exact Store.request_asked_webMap _ _ rfl
  · rw [if_neg h1, if_neg h2, if_neg h1, if_neg h2]
    exact ⟨fun _ _ => rfl, by simp, by simp, by simp⟩

theorem Store.portGoOn_keeps {st : Store} {n : Nat} (h : st.insertionOutstanding n = true) :
    st.portGoOn.insertionOutstanding n = true := by
  unfold Store.portGoOn
  cases hs : st.serving with
  | some v => simpa [hs] using h
  | none =>
    have hq : (st.seqWaiting.any fun l => l.isInsertionOf n) = true := by simpa [Store.insertionOutstanding, hs] using h
    have hn : st.serveNext.insertionOutstanding n = true := by
      unfold Store.serveNext
      cases hw : st.seqWaiting with
      | nil => simp [hw] at hq
      | cons l rest =>
        rw [hw] at hq
        simpa [Store.serve, Store.insertionOutstanding, Bool.or_comm] using hq
    cases hp : st.phase with
    | none => simp only []; split <;> assumption
    | some q => cases q <;> simp only [] <;> split <;> first | assumption | (simpa [Store.insertionOutstanding, hs] using hq)

/-- The insertion lookup asked for is outstanding (R135). -/
theorem State.askForPanel_outstanding (s : State) (p : Panel) (hb : s.cfg.blade = true) (hp : p.pattern ≠ 0) :
    (s.askForPanel p).store.insertionOutstanding p.number = true := by
  have h1 : (s.store.request { requester := .insertion, panel := p.number, id := p.pattern }).insertionOutstanding p.number = true :=
    Store.portGoOn_keeps (by simp [Store.insertionOutstanding, Lookup.isInsertionOf])
  unfold State.askForPanel State.requestLookup
  simp only [hb, hp, ne_eq, not_false_eq_true, decide_true, Bool.and_self, Bool.true_and, if_true]
  split
  · exact Store.portGoOn_keeps (by simpa [Store.insertionOutstanding] using h1)
  · exact h1

theorem State.askForPanel_nextPanel (s : State) (p : Panel) : (s.askForPanel p).nextPanel = s.nextPanel := by
  unfold State.nextPanel
  rw [(State.askForPanel_map s p).1]

theorem State.nextPanel_number (s : State) : s.nextPanel.map (fun x => x.1.number) = s.nextPanelNumber := by
  unfold State.nextPanel State.nextPanelNumber
  cases h : s.map.features.find? fun f => f.panel?.isSome && !f.reached with
  | none => simp
  | some f => cases hf : f.panel? <;> simp [hf]

/-- Everything the settling of the next context does when a panel is asked for that the list has just taken. -/
theorem State.settleNext_seq (s : State) (hb : s.cfg.blade = true) (g : Feature) (q : Panel)
    (hq : s.nextPanel = some (q, g)) :
    (s.nextIs q.number = true → s.settleNext = s) ∧
    (s.nextIs q.number = false → q.pattern = 0 → s.settleNext.store = s.store ∧ s.settleNext.map = s.map ∧
      s.settleNext.seq = { s.seq with next := some (Context.flat q.number 0 g.entry q.nominal) }) ∧
    (s.nextIs q.number = false → q.pattern ≠ 0 → s.store.insertionOutstanding q.number = true →
      s.settleNext.store = s.store ∧ s.settleNext.map = s.map ∧
      s.settleNext.seq = { s.seq with next := some (Context.outstanding q.number q.pattern g.entry q.nominal) }) := by
  unfold State.settleNext
  refine ⟨fun h => ?_, fun h hp => ?_, fun h hp ho => ?_⟩ <;> simp [*]

/-- An offer with room is an insertion alone. -/
theorem State.offerFeature_of_room {s : State} {f : Feature} (h : s.hasRoomFor f = true) : s.offerFeature f = s.insertOrDiscard f := by
  simp [State.offerFeature, h]

/-- A discarded offer leaves the Tracker without a stretch reference. -/
theorem State.offerFeature_discard {s : State} {f : Feature} (h : s.hasRoomFor f = false) : (s.offerFeature f).tracker.ref = none := by
  simp [State.offerFeature, h]

/-- Everything the insertion of a new PANEL brings with it. -/
theorem State.offerFeature_settlesPanel (s : State) (number pattern : Nat) (nominal : Option Nat) (cause : Option RejectCause)
    (planDrawn : Bool) (entry : Pos) (hroom : s.map.features.length < 32) (hn : number ∉ panelNumbers s.map.features) :
    s.settlesPanel (s.offerFeature (panelFeature (s.newPanel number pattern nominal cause planDrawn) entry))
      (s.newPanel number pattern nominal cause planDrawn) entry := by
  let p := s.newPanel number pattern nominal cause planDrawn
  let u : State := { s with map := { s.map with features := insertFeature (panelFeature p entry) s.map.features } }
  have hfree : ∀ g ∈ s.map.features, g.isPanel number = false := by
    intro g hg
    cases hb : g.body with
    | splice n a => simp [Feature.isPanel, hb]
    | panel q =>
      simp only [Feature.isPanel, hb, decide_eq_false_iff_not]
      intro hq
      exact hn (List.mem_filterMap.2 ⟨g, hg, by simp [Feature.panel?, hb, hq]⟩)
  have ht : s.offerFeature (panelFeature p entry) = (u.askForPanel p).settleNext := by
    have hr : s.hasRoomFor (panelFeature p entry) = true := by
      simp only [State.hasRoomFor, panelFeature, hroom, decide_true, Bool.true_and, Bool.not_eq_true', List.any_eq_false]
      intro g hg
      simp [p, State.newPanel, hfree g hg]
    rw [State.offerFeature_of_room hr]
    unfold State.insertOrDiscard
    rw [if_neg (by omega), if_pos hr]
    rfl
  refine ⟨?_, ?_, fun hpre => ?_⟩
  · cases hb : s.cfg.blade <;> by_cases hp : pattern = 0 <;> cases nominal <;> simp [State.newPanel, hb, hp]
  · by_cases hz : s.cfg.zones = [] <;> by_cases hp : pattern = 0 <;> simp [State.newPanel, State.hasZones, hz, hp]
  · have hd : p.dose = .pending ↔ p.pattern ≠ 0 ∧ s.cfg.zones ≠ [] := by
      by_cases hz : s.cfg.zones = [] <;> by_cases hp : pattern = 0 <;> simp [p, State.newPanel, State.hasZones, hz, hp]
    have hask := State.askForPanel_asked u p hd
    obtain ⟨hm, hq, hc⟩ := State.askForPanel_map u p
    show s.store.asked (s.offerFeature (panelFeature p entry)).store _ _ ∧ _
    rw [ht]
    cases hb : s.cfg.blade with
    | false =>
      have hs : (u.askForPanel p).settleNext = u.askForPanel p := by
        unfold State.settleNext
        rw [hc]
        simp [u, hb]
      rw [hs]
      refine ⟨?_, by simp, fun _ => hq⟩
      simpa [u, hb] using hask
    | true =>
      have hub : (u.askForPanel p).cfg.blade = true := by rw [hc]; exact hb
      have hpre := hpre hb
      have hP : ((panelFeature p entry).panel?.isSome && !(panelFeature p entry).reached) = true := by simp [panelFeature, Feature.panel?]
      have hnum : ∀ (g : Feature) (q : Panel), g ∈ s.map.features → g.panel? = some q → q.number ≠ number := by
        intro g q hg hq he
        exact hn (List.mem_filterMap.2 ⟨g, hg, by simp [hq, he]⟩)
      have hself : p.number = number := rfl
      rcases find?_insertFeature (panelFeature p entry) (fun f => f.panel?.isSome && !f.reached) s.map.features with
        ⟨he, hne⟩ | ⟨-, he⟩ | ⟨hf, -⟩
      · obtain ⟨g, hg⟩ := Option.ne_none_iff_exists'.1 (hne (by simpa using hP))
        have hgP := List.find?_some hg
        have hgm := List.mem_of_find?_eq_some hg
        simp only [Bool.and_eq_true, Option.isSome_iff_exists] at hgP
        obtain ⟨q, hgq⟩ := hgP.1
        have hnp : (u.askForPanel p).nextPanel = some (q, g) := by
          rw [State.askForPanel_nextPanel]
          simp [State.nextPanel, u, he, hg, hgq]
        have hsn : s.nextPanelNumber = some q.number := by simp [State.nextPanelNumber, hg, hgq]
        have hni : (u.askForPanel p).nextIs q.number = true := by
          rw [hsn] at hpre
          cases hc' : s.seq.next with
          | none => simp [hc'] at hpre
          | some c =>
            simp only [hc', Option.map_some, Option.some.injEq] at hpre
            simp [State.nextIs, u, hc', hpre]
        rw [(State.settleNext_seq _ hub g q hnp).1 hni]
        have htn : (u.askForPanel p).nextPanelNumber = some q.number := by
          rw [← State.nextPanel_number, hnp]
          rfl
        refine ⟨by simpa [u, hb] using hask, fun _ h => ?_, fun _ => hq⟩
        rw [htn] at h
        exact absurd (Option.some.inj h) (hnum g q hgm hgq)
      · have hnp : (u.askForPanel p).nextPanel = some (p, panelFeature p entry) := by
          rw [State.askForPanel_nextPanel]
          simp only [State.nextPanel, u, he]
          rfl
        have hni : (u.askForPanel p).nextIs p.number = false := by
          cases hc' : s.seq.next with
          | none => simp [State.nextIs, u, hc']
          | some c =>
            simp only [State.nextIs, hq, u, hc', decide_eq_false_iff_not]
            intro hcp
            simp only [hc', Option.map_some, hcp, hself] at hpre
            unfold State.nextPanelNumber at hpre
            cases hfd : s.map.features.find? fun f => f.panel?.isSome && !f.reached with
            | none => simp [hfd] at hpre
            | some g =>
              cases hgq : g.panel? with
              | none => simp [hfd, hgq] at hpre
              | some q =>
                simp only [hfd, Option.bind_some, hgq, Option.map_some, Option.some.injEq] at hpre
                exact hnum g q (List.mem_of_find?_eq_some hfd) hgq hpre.symm
        obtain ⟨-, h0, h1⟩ := State.settleNext_seq _ hub _ _ hnp
        have htn : ∀ t : State, t.map = u.map → t.nextPanelNumber = some p.number := by
          intro t htm
          simp only [State.nextPanelNumber, htm, u, he]
          rfl
        by_cases hp : p.pattern = 0
        · obtain ⟨e1, e2, e3⟩ := h0 hni hp
          refine ⟨by rw [e1]; simpa [u, hb] using hask, fun _ _ => ?_, fun h => ?_⟩
          · rw [e3, hq]
            have hp' : pattern = 0 := hp
            simp [Context.flat, p, State.newPanel, hp', u, panelFeature]
          · rcases h with h | h
            · exact absurd h (by simp)
            · exact absurd (htn _ (by rw [e2, hm])) h
        · obtain ⟨e1, e2, e3⟩ := h1 hni hp (State.askForPanel_outstanding u p hb hp)
          refine ⟨by rw [e1]; simpa [u, hb] using hask, fun _ _ => ?_, fun h => ?_⟩
          · rw [e3, hq]
            have hp' : pattern ≠ 0 := hp
            simp [Context.outstanding, p, State.newPanel, hp', u, panelFeature]
          · rcases h with h | h
            · exact absurd h (by simp)
            · exact absurd (htn _ (by rw [e2, hm])) h
      · simp [panelFeature, Feature.panel?] at hf

end Sys2Proof.Machine
end

