-- ==== Sys2Proof/Laws/PerInstr.lean ====
section
/-! SUPPORT. For every command: a well-formed command that carries a frame is the command of the very frame its bytes stand for (R9, R12), and
only the frame commands carry bytes. -/

namespace Sys2Proof.Laws.ReadsAsItself

open Sys2Proof Sys2Proof.Machine

/-- The bytes of the frame a command carries; none for a command that carries no frame. -/
def frameBytes (i : Instr) : Option (List Byte) :=
  match i with
  | .powerOn => none
  | .resetPin => none
  | .startUp _ => none
  | .configReadComplete _ => none
  | .scanReadComplete => none
  | .scanEraseComplete => none
  | .listenTimerExpiry => none
  | .endOfGap => none
  | .slotOpening _ => none
  | .contentionPeriodTimeout => none
  | .readbackMismatch => none
  | .frameSent => none
  | .receiveAbort => none
  | .beaconTimerExpiry => none
  | .halt bytes => some bytes
  | .beacon bytes => some bytes
  | .run bytes => some bytes
  | .stop bytes => some bytes
  | .clear bytes => some bytes
  | .release bytes => some bytes
  | .handoffPanel bytes => some bytes
  | .handoffSplice bytes => some bytes
  | .handoffReject bytes => some bytes
  | .plan bytes => some bytes
  | .patOpen bytes => some bytes
  | .patStep bytes => some bytes
  | .patClose bytes => some bytes
  | .patErase bytes => some bytes
  | .roll bytes => some bytes
  | .reportReq bytes => some bytes
  | .report bytes => some bytes
  | .restart bytes => some bytes
  | .peerAgeTimerExpiry _ => none
  | .rampTimerExpiry => none
  | .driveFaultTimerExpiry => none
  | .stepPeriodEnd _ => none
  | .forwardEdge _ => none
  | .reverseEdge => none
  | .captureTimerOverflow _ => none
  | .surfaceEncoderEdge _ _ _ => none
  | .markSensed => none
  | .handoffWindowExpiry => none
  | .markWindowExpiry => none
  | .featureAtExit => none
  | .spliceReachesEntry => none
  | .webMapLookupComplete => none
  | .sequencerLookupComplete => none
  | .suspendEnd => none
  | .resumeEnd => none
  | .nvProgramComplete => none
  | .nvEraseComplete => none
  | .strikePositionReached => none
  | .strokeTimerExpiry => none
  | .spliceClearPassed => none
  | .sampleTimerExpiry => none
  | .zoneConversionComplete _ _ => none
  | .valvePeriodStart _ => none
  | .valveActiveEnd _ => none
  | .doseTimerExpiry => none
  | .segmentBoundary => none
  | .segmentAtExit => none
  | .rollRunOut => none
  | .spliceArming => none
  | .spliceRampTimerExpiry => none
  | .matchTimerExpiry => none
  | .matchTimeoutExpiry => none
  | .pasteStrobeEnd => none
  | .cutStrobeEnd => none
  | .firstActivity => none
  | .powerFailure => none

/-- The command reads as itself: when it is well-formed and carries bytes, they are an accepted frame whose command it is. -/
def Statement (i : Instr) : Prop :=
  i.wellFormed = true → ∀ bytes, frameBytes i = some bytes → ∃ f, acceptFrame bytes = some f ∧ commandOf f.payload bytes = i

/-- A command that carries no frame reads as itself. -/
theorem of_none {i : Instr} (h : frameBytes i = none) : Statement i := by
  intro _ bytes hb
  rw [h] at hb
  cases hb

/-- Bytes that pass a test on their payload are an accepted frame whose payload passes it. -/
theorem of_acceptedAs {test : Payload → Bool} {bytes : List Byte} (h : acceptedAs test bytes = true) :
    ∃ f, acceptFrame bytes = some f ∧ test f.payload = true := by
  unfold acceptedAs at h
  split at h
  · exact ⟨_, ‹_›, h⟩
  · cases h

theorem powerOn : Statement .powerOn := of_none rfl

theorem resetPin : Statement .resetPin := of_none rfl

theorem startUp (straps : BitVec 4) : Statement (.startUp straps) := of_none rfl

theorem configReadComplete (words : List Word16) : Statement (.configReadComplete words) := of_none rfl

theorem scanReadComplete : Statement .scanReadComplete := of_none rfl

theorem scanEraseComplete : Statement .scanEraseComplete := of_none rfl

theorem listenTimerExpiry : Statement .listenTimerExpiry := of_none rfl

theorem endOfGap : Statement .endOfGap := of_none rfl

theorem slotOpening (slot : Nat) : Statement (.slotOpening slot) := of_none rfl

theorem contentionPeriodTimeout : Statement .contentionPeriodTimeout := of_none rfl

theorem readbackMismatch : Statement .readbackMismatch := of_none rfl

theorem frameSent : Statement .frameSent := of_none rfl

theorem receiveAbort : Statement .receiveAbort := of_none rfl

theorem beaconTimerExpiry : Statement .beaconTimerExpiry := of_none rfl

theorem halt (bytes : List Byte) : Statement (.halt bytes) := by
  intro h _ hb
  cases hb
  unfold Instr.wellFormed at h
  obtain ⟨⟨_, p⟩, hf, hp⟩ := of_acceptedAs h
  exact ⟨_, hf, by cases p <;> first | rfl | cases hp⟩

theorem beacon (bytes : List Byte) : Statement (.beacon bytes) := by
  intro h _ hb
  cases hb
  unfold Instr.wellFormed at h
  obtain ⟨⟨_, p⟩, hf, hp⟩ := of_acceptedAs h
  exact ⟨_, hf, by cases p <;> first | rfl | cases hp⟩

theorem run (bytes : List Byte) : Statement (.run bytes) := by
  intro h _ hb
  cases hb
  unfold Instr.wellFormed at h
  obtain ⟨⟨_, p⟩, hf, hp⟩ := of_acceptedAs h
  exact ⟨_, hf, by cases p <;> first | rfl | cases hp⟩

theorem stop (bytes : List Byte) : Statement (.stop bytes) := by
  intro h _ hb
  cases hb
  unfold Instr.wellFormed at h
  obtain ⟨⟨_, p⟩, hf, hp⟩ := of_acceptedAs h
  exact ⟨_, hf, by cases p <;> first | rfl | cases hp⟩

theorem clear (bytes : List Byte) : Statement (.clear bytes) := by
  intro h _ hb
  cases hb
  unfold Instr.wellFormed at h
  obtain ⟨⟨_, p⟩, hf, hp⟩ := of_acceptedAs h
  exact ⟨_, hf, by cases p <;> first | rfl | cases hp⟩

theorem release (bytes : List Byte) : Statement (.release bytes) := by
  intro h _ hb
  cases hb
  unfold Instr.wellFormed at h
  obtain ⟨⟨_, p⟩, hf, hp⟩ := of_acceptedAs h
  exact ⟨_, hf, by cases p <;> first | rfl | cases hp⟩

theorem handoffPanel (bytes : List Byte) : Statement (.handoffPanel bytes) := by
  intro h _ hb
  cases hb
  unfold Instr.wellFormed at h
  obtain ⟨⟨_, p⟩, hf, hp⟩ := of_acceptedAs h
  exact ⟨_, hf, by cases p <;> first | rfl | cases hp⟩

theorem handoffSplice (bytes : List Byte) : Statement (.handoffSplice bytes) := by
  intro h _ hb
  cases hb
  unfold Instr.wellFormed at h
  obtain ⟨⟨_, p⟩, hf, hp⟩ := of_acceptedAs h
  exact ⟨_, hf, by cases p <;> first | rfl | cases hp⟩

theorem handoffReject (bytes : List Byte) : Statement (.handoffReject bytes) := by
  intro h _ hb
  cases hb
  unfold Instr.wellFormed at h
  obtain ⟨⟨_, p⟩, hf, hp⟩ := of_acceptedAs h
  exact ⟨_, hf, by cases p <;> first | rfl | cases hp⟩

theorem plan (bytes : List Byte) : Statement (.plan bytes) := by
  intro h _ hb
  cases hb
  unfold Instr.wellFormed at h
  obtain ⟨⟨_, p⟩, hf, hp⟩ := of_acceptedAs h
  exact ⟨_, hf, by cases p <;> first | rfl | cases hp⟩

theorem patOpen (bytes : List Byte) : Statement (.patOpen bytes) := by
  intro h _ hb
  cases hb
  unfold Instr.wellFormed at h
  obtain ⟨⟨_, p⟩, hf, hp⟩ := of_acceptedAs h
  exact ⟨_, hf, by cases p <;> first | rfl | cases hp⟩

theorem patStep (bytes : List Byte) : Statement (.patStep bytes) := by
  intro h _ hb
  cases hb
  unfold Instr.wellFormed at h
  obtain ⟨⟨_, p⟩, hf, hp⟩ := of_acceptedAs h
  exact ⟨_, hf, by cases p <;> first | rfl | cases hp⟩

theorem patClose (bytes : List Byte) : Statement (.patClose bytes) := by
  intro h _ hb
  cases hb
  unfold Instr.wellFormed at h
  obtain ⟨⟨_, p⟩, hf, hp⟩ := of_acceptedAs h
  exact ⟨_, hf, by cases p <;> first | rfl | cases hp⟩

theorem patErase (bytes : List Byte) : Statement (.patErase bytes) := by
  intro h _ hb
  cases hb
  unfold Instr.wellFormed at h
  obtain ⟨⟨_, p⟩, hf, hp⟩ := of_acceptedAs h
  exact ⟨_, hf, by cases p <;> first | rfl | cases hp⟩

theorem roll (bytes : List Byte) : Statement (.roll bytes) := by
  intro h _ hb
  cases hb
  unfold Instr.wellFormed at h
  obtain ⟨⟨_, p⟩, hf, hp⟩ := of_acceptedAs h
  exact ⟨_, hf, by cases p <;> first | rfl | cases hp⟩

theorem reportReq (bytes : List Byte) : Statement (.reportReq bytes) := by
  intro h _ hb
  cases hb
  unfold Instr.wellFormed at h
  obtain ⟨⟨_, p⟩, hf, hp⟩ := of_acceptedAs h
  exact ⟨_, hf, by cases p <;> first | rfl | cases hp⟩

theorem report (bytes : List Byte) : Statement (.report bytes) := by
  intro h _ hb
  cases hb
  unfold Instr.wellFormed at h
  obtain ⟨⟨_, p⟩, hf, hp⟩ := of_acceptedAs h
  exact ⟨_, hf, by cases p <;> first | rfl | cases hp⟩

theorem restart (bytes : List Byte) : Statement (.restart bytes) := by
  intro h _ hb
  cases hb
  unfold Instr.wellFormed at h
  obtain ⟨⟨_, p⟩, hf, hp⟩ := of_acceptedAs h
  exact ⟨_, hf, by cases p <;> first | rfl | cases hp⟩

theorem peerAgeTimerExpiry (index : BitVec 4) : Statement (.peerAgeTimerExpiry index) := of_none rfl

theorem rampTimerExpiry : Statement .rampTimerExpiry := of_none rfl

theorem driveFaultTimerExpiry : Statement .driveFaultTimerExpiry := of_none rfl

theorem stepPeriodEnd (gen : StepGen) : Statement (.stepPeriodEnd gen) := of_none rfl

theorem forwardEdge (count : BitVec 16) : Statement (.forwardEdge count) := of_none rfl

theorem reverseEdge : Statement .reverseEdge := of_none rfl

theorem captureTimerOverflow (encoder : Encoder) : Statement (.captureTimerOverflow encoder) := of_none rfl

theorem surfaceEncoderEdge (before : Quad) (after : Quad) (count : BitVec 16) : Statement (.surfaceEncoderEdge before after count) := of_none rfl

theorem markSensed : Statement .markSensed := of_none rfl

theorem handoffWindowExpiry : Statement .handoffWindowExpiry := of_none rfl

theorem markWindowExpiry : Statement .markWindowExpiry := of_none rfl

theorem featureAtExit : Statement .featureAtExit := of_none rfl

theorem spliceReachesEntry : Statement .spliceReachesEntry := of_none rfl

theorem webMapLookupComplete : Statement .webMapLookupComplete := of_none rfl

theorem sequencerLookupComplete : Statement .sequencerLookupComplete := of_none rfl

theorem suspendEnd : Statement .suspendEnd := of_none rfl

theorem resumeEnd : Statement .resumeEnd := of_none rfl

theorem nvProgramComplete : Statement .nvProgramComplete := of_none rfl

theorem nvEraseComplete : Statement .nvEraseComplete := of_none rfl

theorem strikePositionReached : Statement .strikePositionReached := of_none rfl

theorem strokeTimerExpiry : Statement .strokeTimerExpiry := of_none rfl

theorem spliceClearPassed : Statement .spliceClearPassed := of_none rfl

theorem sampleTimerExpiry : Statement .sampleTimerExpiry := of_none rfl

theorem zoneConversionComplete (zone : Nat) (raw : BitVec 12) : Statement (.zoneConversionComplete zone raw) := of_none rfl

theorem valvePeriodStart (zone : Nat) : Statement (.valvePeriodStart zone) := of_none rfl

theorem valveActiveEnd (zone : Nat) : Statement (.valveActiveEnd zone) := of_none rfl

theorem doseTimerExpiry : Statement .doseTimerExpiry := of_none rfl

theorem segmentBoundary : Statement .segmentBoundary := of_none rfl

theorem segmentAtExit : Statement .segmentAtExit := of_none rfl

theorem rollRunOut : Statement .rollRunOut := of_none rfl

theorem spliceArming : Statement .spliceArming := of_none rfl

theorem spliceRampTimerExpiry : Statement .spliceRampTimerExpiry := of_none rfl

theorem matchTimerExpiry : Statement .matchTimerExpiry := of_none rfl

theorem matchTimeoutExpiry : Statement .matchTimeoutExpiry := of_none rfl

theorem pasteStrobeEnd : Statement .pasteStrobeEnd := of_none rfl

theorem cutStrobeEnd : Statement .cutStrobeEnd := of_none rfl

theorem firstActivity : Statement .firstActivity := of_none rfl

theorem powerFailure : Statement .powerFailure := of_none rfl

end Sys2Proof.Laws.ReadsAsItself
end

