-- ==== Sys2Proof/Tests/Slice0.lean ====
section
/-! SUPPORT. Small tests, with expected values from the worked cases of the data book and by hand from its rules, and for each statement with
premises a state that meets them. -/

namespace Sys2Proof.Tests

open Sys2Proof Sys2Proof.Machine

set_option Elab.async false

/-! ### Small states -/

/-- The state after a command; the state before it should the command stop. -/
def after (c : Instr) (s : State) : State :=
  match exec c s with
  | .next t => t
  | .fault _ | .refused _ => s

def zoneA : ZoneConfig :=
  { start := 10000, stop := 50000, setpoint := 1800, setback := 1200, band := 30, kp := 200, ki := 30, period := 500, activeLow := false }

/-- Four stations, 1 to 4; a station with feed drive and mark sensor. -/
def config : StationConfig :=
  { StationConfig.blank with
    roster := 0x001E, feedDrive := true, markSensor := true, encTicks := 4, feedTicksPerStep := 2, newRollTicksPerStep := 4
    maxSpeed := 120000, acc := 50, dec := 40, decFast := 400, lSpan := 40000, bDist := 40000, claimWindow := 2000, tStroke := 20
    spliceClear := 3000, segLen := 5000, doseDefault := 2000, spliceAt := 2000000, spliceSpeed := 40000, pDist := 50000
    protectBoundary := 100 }

def freshPeer : Peer := { member := true, state := .fresh, ageTimer := some 20000, ceiling := some 100000, qOut := some 65536 }

def fourPeers : LineControl :=
  (((LineControl.reset.setPeer 1 freshPeer).setPeer 2 freshPeer).setPeer 3 freshPeer).setPeer 4 freshPeer

/-- Station 3 in STANDBY, receiving. -/
def station : State :=
  { State.reset with
    boot := { Boot.reset with phase := .done, index := 3 }
    cfg := config
    link := { Link.reset with line := .receiving, beaconTimer := some 5000 }
    line := { fourPeers with state := .standby, rampTimer := some 1000 } }

/-- A station in a line state at a commanded speed. -/
def State.inLine (s : State) (st : LineState) (v : Nat) : State := { s with line := { s.line with state := st, vCmd := v, setpoint := 80000 } }

/-- Station 3 in RUN at 60,000. -/
def running : State := State.inLine station .run 60000

/-- Station 3 with a blade. -/
def blade : State := { running with cfg := { config with blade := true } }

/-- Station 3 with one zone. -/
def steamer : State :=
  { running with
    cfg := { config with zones := [zoneA] }
    steam := { sampleTimer := some 100000, converting := [0], zones := [freshZone zoneA] }
    dose := { Dose.reset with nextBoundary := 5000, timer := some 10000 } }

/-- Station 1: origin, with the unwind. -/
def origin : State :=
  { running with
    boot := { running.boot with index := 1 }
    cfg := { config with origin := true, unwind := true } }

/-- Station 4: the last of the line, with the reject gate. -/
def lastStation : State :=
  { running with boot := { running.boot with index := 4 }, cfg := { config with rejectGate := true } }

/-- A frame from a sender, as heard. -/
def from_ (sender : BitVec 4) (p : Payload) : List Byte := encodeFrame sender p

/-- A panel's feature. -/
def panelAt (number : Nat) (entry : Pos) : Feature :=
  { body :=
      .panel { number := number, pattern := 12, nominal := some 100000, outLen := .absent, dose := .absent, cause := none, planDrawn := false }
    entry := entry
    overdue := false
    reached := false }

/-- A splice's feature. -/
def spliceAt (number : Nat) (entry : Pos) : Feature := { body := .splice number false, entry := entry, overdue := false, reached := false }

def State.at_ (s : State) (p : Pos) : State := { s with tracker := { s.tracker with position := p } }

def State.holding (s : State) (fs : List Feature) : State := { s with map := { s.map with features := fs } }

/-- Pattern 215 (06_pattern_store.md, Loading Pattern 215). -/
def pattern215 : Pattern :=
  { id := 215, nominal := 100000, leadIn := 1500, dose := 2500
    entries := [.group 3, .fold .left 1200 800 2 50 20, .close, .mirror, .flat 5000] }

/-- Pattern 402 (08_pleat_sequencer.md, Walking Pattern 402). -/
def pattern402 : Pattern :=
  { id := 402, nominal := 40000, leadIn := 2000, dose := 0
    entries := [.group 2, .group 3, .fold .left 900 450 2 0 0, .close, .mirror, .flat 1000, .close] }

/-! ### WellFormed: each check refuses an ill-formed term -/

theorem test_ill_formed_slot : Instr.wellFormed (.slotOpening 64) = false := by decide
theorem test_ill_formed_config : Instr.wellFormed (.configReadComplete (List.replicate 70 0)) = false := by decide
theorem test_ill_formed_peer : Instr.wellFormed (.peerAgeTimerExpiry 0) = false := by decide
theorem test_ill_formed_edge : Instr.wellFormed (.surfaceEncoderEdge ⟨false, false⟩ ⟨true, true⟩ 0) = false := by decide
theorem test_ill_formed_zones :
    Instr.wellFormed (.zoneConversionComplete 4 0) = false ∧ Instr.wellFormed (.valvePeriodStart 4) = false ∧
      Instr.wellFormed (.valveActiveEnd 4) = false := by decide
theorem test_ill_formed_frames :
    (frameCommands.zipIdx.all fun (c, k) =>
      !Instr.wellFormed (c (from_ 2 (if k = 4 ∨ k = 5 then .handoffSplice 7 else .handoffReject 7 1))) || decide (k = 4)) = true := by
  decide +kernel
theorem test_ill_formed_bytes : (frameCommands.all fun c => !Instr.wellFormed (c [0xD3, 0x03])) = true := by decide +kernel
theorem test_well_formed_frame : Instr.wellFormed (.stop (from_ 0 (.stop 0x001E))) = true := by decide +kernel

/-! ### Frames, checks and numbers worked in the data book -/

/-- The register after 31h to 39h is 29B1h: the catalogued check of the polynomial and start value R7 gives. -/
theorem test_crc : crc [0x31, 0x32, 0x33, 0x34, 0x35, 0x36, 0x37, 0x38, 0x39] = 0x29B1 := by decide +kernel
/-- STOP to stations 1 to 4 from the panel, byte by byte by R7 and R8. -/
theorem test_stop_bytes : (from_ 0 (.stop 0x001E)).take 6 = [0xD3, 0xC0, 0x11, 0x02, 0x00, 0x1E] := by decide +kernel
/-- A PANEL handoff of length 0, and one of cause 8, are not well formed (R9). -/
theorem test_panel_tests :
    parsePayload .handoff [1, 0, 0, 0, 0, 0, 12, 0, 1, 0, 0, 0] = none ∧ parsePayload .handoff [1, 0, 0, 0, 9, 0, 12, 0, 1, 0, 0, 8] = none ∧
      parsePayload .handoff [1, 0, 0, 0, 9, 0, 12, 0, 1, 0x86, 0xA0, 2] = some (.handoffPanel 9 12 100000 2) := by decide
/-- PAT_STEP with GROUP 3 and FOLD L: 15 bytes of payload (Loading Pattern 215). -/
theorem test_pat_step_bytes :
    (payloadBytes (.patStep 2 0 [.group 3, .fold .left 1200 800 2 50 20])).length = 15 ∧
      parsePayload .patStep (payloadBytes (.patStep 2 0 [.group 3, .fold .left 1200 800 2 50 20])) =
        some (.patStep 2 0 [.group 3, .fold .left 1200 800 2 50 20]) := by decide
/-- Worked Divisors. -/
theorem test_divisors : divisorFor 4 50000 = .value 319 ∧ divisorFor 2 30000 = .value 265 ∧ divisorFor 2 23999 = .value 332 := by decide
/-- Worked Captures. -/
theorem test_captures : speedOf 4 80 = 50000 ∧ speedOf 4 132072 = 30 ∧ speedOf 4 21 = 190476 := by decide
/-- Worked Stretch Updates, and A Pairing Sequence. -/
theorem test_stretch : stretchValue 100800 100000 = 66060 ∧ stretchValue 110000 100000 = 72090 ∧ stretchValue 100100 100000 = 65602 := by
  decide
/-- Worked Conversions. -/
theorem test_temperatures :
    temperatureOf 2900 = 1770 ∧ temperatureOf 2500 = 1526 ∧ temperatureOf 9 = 5 ∧ temperatureOf 4086 = 2494 ∧ badSample 8 = true ∧
      badSample 9 = false ∧ badSample 4086 = false ∧ badSample 4087 = true := by decide
/-- Loading Pattern 215: it passes its checks, and consumes 27,760 beside its lead-in. -/
theorem test_pattern_215 :
    structureGood pattern215.entries = true ∧ expandedConsumption pattern215.entries = 27760 ∧
      lengthGood 100000 1500 pattern215.entries = true := by decide +kernel
/-- Walking Pattern 402: its figures. -/
theorem test_pattern_402 :
    expandedConsumption pattern402.entries = 30800 ∧ pattern402.outputLength = 25600 ∧ pattern402.qPanel = 41943 ∧
      pattern402.cMin = some 1800 := by decide +kernel
/-- A Graded Fold at the Bounds. -/
theorem test_graded_fold :
    (List.range 5).map (gradedFace 7800 150) = [7800, 7950, 8000, 8000, 8000] ∧
      (List.range 5).map (gradedDepth 300 (-80)) = [300, 220, 140, 100, 100] := by decide
/-- A MIRROR after the END of a group that holds a GROUP fails, as does a nesting of five, and an open group (R103). -/
theorem test_structure_fails :
    structureGood [.group 1, .group 1, .flat 1, .close, .close, .mirror] = false ∧
      structureGood [.group 1, .group 1, .group 1, .group 1, .group 1, .close, .close, .close, .close, .close] = false ∧
      structureGood [.group 1] = false ∧ structureGood [.close] = false := by decide

/-- The strikes of a play in order: position, hand and depth word. -/
def strikes (pattern : Pattern) (s : Nat) : Nat → Play → List (Nat × Hand × Nat)
  | 0, _ => []
  | n + 1, p =>
    match p.strike with
    | some k => (k.pos.toNat, k.hand, k.depth) :: strikes pattern s n (p.nextStrike (some pattern) s)
    | none => []

/-- Strikes of Pattern 215, at s 66,060 from the base 5,040,000. -/
theorem test_strikes_215 :
    strikes pattern215 66060 10 (Play.setUp 5040000 (some pattern215) 66060) =
      [(5044334, .left, 800), (5047247, .left, 820), (5050069, .left, 800), (5052982, .left, 820), (5055805, .left, 800),
       (5058718, .left, 820), (5061631, .right, 820), (5064453, .right, 800)] := by decide +kernel
/-- Walking Pattern 402: 16 strikes, the hands of the first outer pass as its table gives them, at s 65,536. -/
theorem test_strikes_402 :
    (strikes pattern402 65536 20 (Play.setUp 0 (some pattern402) 65536)).length = 16 ∧
      ((strikes pattern402 65536 8 (Play.setUp 0 (some pattern402) 65536)).map fun k => k.2.1) =
        [.left, .left, .left, .left, .left, .left, .right, .right] := by decide +kernel
/-- A Zone Raised from Setback: the duties 500 and 467, the integrator held and then 39,700. -/
theorem test_raised_zone :
    let z : Zone := { freshZone zoneA with integrator := 25600, setpointInUse := 1800 }
    (z.control 1200).pendingDuty = some 500 ∧ (z.control 1200).integrator = 25600 ∧ (z.control 1330).pendingDuty = some 467 ∧
      (z.control 1330).integrator = 39700 := by decide
/-- A Halt on a Hot Zone: the duty 0, the integrator held at 60,000. -/
theorem test_halted_zone :
    let z : Zone := { freshZone zoneA with integrator := 60000, setpointInUse := 1200 }
    (z.control 1800).pendingDuty = some 0 ∧ (z.control 1800).integrator = 60000 := by decide
/-- Working the Check: word 68 of 50,564 beside a sum of 14,972. -/
theorem test_sum : sumGood ((List.replicate 67 0 ++ [14972]) ++ [50564]) = true ∧ sumGood ((List.replicate 67 0 ++ [14973]) ++ [50564]) = false := by
  decide +kernel
/-- The Ceiling Through the Ratio Chain, second row: 24,000 local is 72,001 in reference, and back 23,999. -/
theorem test_ratio_chain :
    let s : State := { running with line := { running.line with qIn := 21845 } }
    s.toReference 24000 = 72001 ∧ s.toLocal 72001 = 23999 := by decide

/-! ### The queue, the line and the frames -/

theorem test_step_takes_the_front :
    (step { station with pending := [.receiveAbort, .endOfGap] } matches .next _) = true ∧
      (after .receiveAbort { station with pending := [.endOfGap] }).pending = [.endOfGap] := by decide +kernel

/-- A premise of `EncodedFramesAreAccepted`, at the largest payload. -/
theorem test_witness_encoded :
    (Payload.report 0 11 2 (List.replicate 12 0xFF)).wellFormed = true ∧ (Payload.handoffPanel 1 65535 0xFFFFFFFF 7).wellFormed = true ∧
      acceptFrame (encodeFrame 15 (.report 0 11 2 (List.replicate 12 0xFF))) = some ⟨15, .report 0 11 2 (List.replicate 12 0xFF)⟩ := by
  decide +kernel
/-- A RUN, and a PAT_STEP whose GROUP's entry byte is 3Fh: its low bits have no meaning (R8). -/
theorem test_witness_accepted :
    (acceptFrame (from_ 2 (.run 8 80000))).isSome = true ∧
      parsePayload .patStep [0, 8, 0, 0x3F, 2, 0x20, 0, 0, 5] = some (.patStep 8 0 [.group 2, .flat 5]) := by decide +kernel
/-- Both halves of `UnprocessedFramesChangeNothing`: a torn frame, a frame for another station, index 0, LISTEN, and a REPORT. -/
theorem test_witness_unprocessed :
    station.link.line = .receiving ∧ acceptFrame (0xD3 :: (from_ 2 (.stop 8)).drop 2) = none ∧
      acceptFrame (from_ 0 (.stop 4)) = some ⟨0, .stop 4⟩ ∧ station.addressed (.stop 4) = false ∧
      { station.boot with index := 0 }.index = 0 ∧ processes .listen .stop = false ∧ Payload.kind (.report 0 0 0 []) = .report ∧
      after (.stop (from_ 0 (.stop 4))) running = running.heard ∧ after (.report (from_ 2 (.report 8 0 0 [1]))) running = running.heard := by
  decide +kernel
/-- DUPLICATE_INDEX at station 3, before and after the HALT holder is closed. -/
theorem test_witness_duplicate :
    running.link.line = .receiving ∧ acceptFrame (from_ 3 (.stop 1)) = some ⟨3, .stop 1⟩ ∧ running.boot.index = 3 ∧
      (let t := after (.stop (from_ 3 (.stop 1))) running
       t.events.has .duplicateIndex = true ∧ t.line.state = .halting ∧ t.link.haltClosed = true ∧
         t.link.haltWaiting = some { id := 0, payload := .halt 2 3 } ∧
         (after (.stop (from_ 3 (.stop 1))) { t with link := { t.link with line := .receiving } }).link.haltWaiting =
           some { id := 0, payload := .halt 2 3 }) := by decide +kernel

def listening (s : State) (n : Nat) : State := { s with link := { s.link with line := .contention n } }
def frameA : TxFrame := { id := 5, payload := .handoffSplice 9 }

theorem test_witness_contention :
    station.awake = true ∧ station.link.line = .receiving ∧ { station.link with line := .waitGap }.line = .waitGap ∧
      (listening station 63).link.line = .contention 63 ∧ (after .endOfGap station).link.line = .contention 0 ∧
      (after .contentionPeriodTimeout (listening station 63)).link.line = .contention 0 ∧
      (after .firstActivity (listening station 63)).link.line = .receiving ∧ (after .receiveAbort station).link.line = .waitGap := by
  decide +kernel
/-- Slots 3, 19, 35 and 51 are station 3's; 63 is not. -/
theorem test_witness_slots :
    (listening station 63).link.line = .contention 63 ∧ 63 % 16 ≠ station.boot.index.toNat ∧ 3 = station.boot.index.toNat ∧
      (let s := { listening station 0 with
                  link := { (listening station 0).link with haltWaiting := some frameA, beaconWaiting := some frameA
                                                            handoffFifo := [frameA], generalFifo := [frameA] } }
       (after (.slotOpening 3) s).link.haltOnLine = some frameA ∧ (after (.slotOpening 19) s).link.beaconOnLine = some frameA ∧
         (after (.slotOpening 35) s).link.line = .sending .handoffFifo 5 ∧ (after (.slotOpening 51) s).link.line = .sending .generalFifo 5 ∧
         (after (.slotOpening 4) s).link.line = .contention 5 ∧ s.driven = [] ∧
         (after (.slotOpening 35) s).driven = lineFrame (encodeFrame 3 frameA.payload)) ∧
      (after (.slotOpening 3) (listening station 0)).link.line = .contention 4 := by decide +kernel

/-- The start byte D3h = 11010011b: start bit, R R D R D D R R, stop bit; the byte 00h between two bytes of ones; dominant wins (R1). -/
theorem test_line_code :
    lineByte 0xD3 =
        [.dominant, .recessive, .recessive, .dominant, .recessive, .dominant, .dominant, .recessive, .recessive, .recessive] ∧
      readLine (lineFrame [0xFF, 0x00, 0xFF]) = some [0xFF, 0x00, 0xFF] ∧ readLine (List.replicate 10 .recessive) = none ∧
      LineBit.wired .recessive .dominant = .dominant := by decide +kernel

def sending (s : State) (p : Place) (fifo : List TxFrame) : State :=
  { s with link := { s.link with line := .sending p 5, handoffFifo := fifo, generalFifo := fifo, haltOnLine := some frameA, beaconOnLine := some frameA } }

/-- A place freed takes the first OVERDUE feature (A Handoff Backlog). -/
theorem test_witness_sent :
    (let s := State.holding (sending running .handoffFifo (List.replicate 8 frameA)) [{ panelAt 60 0 with reached := true, overdue := true }]
     s.link.line = .sending .handoffFifo 5 ∧ s.link.handoffFifo.length ≤ 8 ∧ s.link.handoffFifo ≠ [] ∧ s.events.has .duplicateIndex = false ∧
       (after .frameSent s).map.features = [] ∧ (after .frameSent s).link.handoffFifo.length = 8) ∧
      (after .frameSent (sending running .haltHolder [])).link.haltOnLine = none ∧
      (after .frameSent (sending running .beaconHolder [])).link.beaconOnLine = none ∧
      (after .frameSent (sending running .generalFifo [frameA])).link.generalFifo = [] ∧
      (sending running .handoffFifo [frameA]).anyOverdue = false := by decide +kernel
/-- The third mismatch of a frame latches LINK_ERROR; a mismatch of another counts 1. -/
theorem test_witness_mismatch :
    (let s := sending running .handoffFifo [frameA]
     let at_ (n : Nat) (id : Nat) : State := { s with link := { s.link with mismatches := n, mismatchFrame := some id } }
     (after .readbackMismatch (at_ 2 5)).events.has .linkError = true ∧ (after .readbackMismatch (at_ 2 5)).link.mismatches = 0 ∧
       (after .readbackMismatch (at_ 1 5)).link.mismatches = 2 ∧ (after .readbackMismatch (at_ 2 4)).link.mismatches = 1 ∧
       (after .readbackMismatch (at_ 2 5)).link.handoffFifo = [frameA]) ∧
      (after .readbackMismatch (sending running .haltHolder [])).link.haltWaiting = some frameA := by decide +kernel
/-- The beacon of a running steam station whose zone is not in band: below-band set 1. -/
theorem test_witness_beacon :
    steamer.link.beaconTimer ≠ none ∧ steamer.events.has .duplicateIndex = false ∧ steamer.steam.zones.length ≤ 4 ∧
      (after .beaconTimerExpiry steamer).link.beaconWaiting.map (fun f => f.payload) =
        some (.beacon 2 120000 60000 65536 0 0 0 0 1) ∧
      ({ steamer with events := steamer.events.set .duplicateIndex } : State).events.has .duplicateIndex = true := by decide +kernel

/-! ### Resets and start-up -/

/-- A configuration block of station 3: 69 words, whose last makes the sum 0. -/
def block : List Word16 :=
  [0x41B6, 69, 0x001E, 0x0106, 4, 2, 4, 1, 54464, 50, 40, 400, 0, 50000, 0, 40000, 2000, 20, 3000, 5000, 2000, 30, 33920, 0, 40000, 0, 50000, 100,
   0, 10000, 0, 50000, 1800, 1200, 30, 51230, 500, 0] ++ List.replicate 30 0 ++ [45774]

def reading (i : BitVec 4) : State := { State.reset with boot := { Boot.reset with phase := .read, index := i, cfgSelect := true } }

theorem test_block_is_good : (readBlock 3 block).map (fun c => (c.maxSpeed, c.lSpan, c.zones)) = some (120000, 50000, [zoneA]) := by
  decide +kernel
/-- Both halves of `ConfigurationIsTakenOrStops`, and a block that fails by one bit. -/
theorem test_witness_configuration :
    (reading 3).boot.phase = .read ∧ (readBlock 3 block).isSome = true ∧ readBlock 3 (block.set 4 5) = none ∧
      (reading 3).link.haltClosed = false ∧ (reading 3).line.state = .starting ∧ (reading 3).seq.state = .idle ∧
      (reading 3).splice.state = .idle ∧ (reading 3).steam.zones = [] ∧
      (after (.configReadComplete block) (reading 3)).boot.phase = .scan ∧
      (after (.configReadComplete (block.set 4 5)) (reading 3)).line.state = .held := by decide +kernel
theorem test_witness_resets :
    running.boot.phase ≠ .off ∧ running.store.phase = none ∧ running.boot.scanMarks = [] ∧
      (after .powerOn running).boot = Boot.reset ∧ (after .resetPin running).events.resetCause = .pin ∧
      (after .powerFailure running).boot.phase = .off := by decide +kernel
theorem test_witness_restart :
    station.hears (from_ 0 (.restart 8)) ⟨0, .restart 8⟩ ∧ station.line.state = .standby ∧ station.splice.state = .idle ∧
      running.line.state = .run ∧ running.hears (from_ 0 (.restart 8)) ⟨0, .restart 8⟩ ∧ station.store.phase = none ∧
      (after (.restart (from_ 0 (.restart 8))) station).boot.phase = .inReset ∧
      (after (.restart (from_ 0 (.restart 8))) running).events.refusalCause = 2 ∧
      (after (.restart (from_ 0 (.restart 8))) { station with splice := { station.splice with state := .cutting } }).events.refusedKind = 0x1C := by
  decide +kernel
theorem test_witness_start_up :
    State.reset.boot.phase = .inReset ∧ State.reset.line.state = .starting ∧ State.reset.seq.state = .idle ∧
      State.reset.splice.state = .idle ∧ State.reset.steam.zones = [] ∧ (after (.startUp 15) State.reset).boot.phase = .read ∧
      (after (.startUp 0) State.reset).line.state = .held ∧ (after (.startUp 0) State.reset).link.haltWaiting = none ∧
      (after (.startUp 15) State.reset).boot.cfgSent =
        [false, false, false, false, false, false, true, true] ++ List.replicate 16 false ∧
      (after (.configReadComplete block) (reading 3)).boot.cfgSent = [] := by decide +kernel

/-- Two copies of pattern 215, slots 3 and 9 (A Scan After a Torn Completion). -/
def scanning : State :=
  let copy (version : Nat) : Option NvRecord :=
    some { pattern := pattern215, version := version, marker := true, checkGood := true, retired := false }
  { reading 3 with
    boot := { (reading 3).boot with phase := .scan, scanReading := true }
    store := { ((reading 3).store.setCell 3 (copy 57)).setCell 9 (copy 40) with counter := some 56 } }

/-- A Scan After a Torn Completion: version 57 stays, version 40 is erased, the counter is 57; the last erase begins LISTEN. -/
theorem test_witness_scan :
    scanning.boot.phase = .scan ∧ scanning.boot.scanReading = true ∧
      (let t := after .scanReadComplete scanning
       t.boot.scanMarks = [9] ∧ t.store.counter = some 57 ∧ (t.store.record 3).state = .valid ∧ t.boot.scanReading = false ∧
         t.boot.phase = .scan ∧ (after .scanEraseComplete t).boot.phase = .listen ∧ (after .scanEraseComplete t).store.cell 9 = none) ∧
      (after .scanReadComplete { scanning with store := State.reset.store }).boot.phase = .listen := by decide +kernel

def listeningState : State :=
  { station with
    boot := { station.boot with phase := .listen, listenTimer := some 20000 }
    line := ({ station.line with state := .starting }).setPeer 2 { freshPeer with qOut := some 21845 } }

theorem test_witness_listen :
    listeningState.boot.phase = .listen ∧ listeningState.boot.listenTimer ≠ none ∧ listeningState.seq.state = .idle ∧
      listeningState.splice.state = .idle ∧ (∀ z ∈ listeningState.steam.zones, z.inBand = false) ∧
      listeningState.nearestFresh = some 2 ∧ (listeningState.line.peer 2).qOut = some 21845 ∧
      (after .listenTimerExpiry listeningState).line.state = .standby ∧ (after .listenTimerExpiry listeningState).line.qIn = 21845 ∧
      (after .listenTimerExpiry { listeningState with events := listeningState.events.set .configBad }).line.state = .held := by
  decide +kernel

/-! ### Line Control -/

theorem test_witness_halts :
    Event.isHalt .rollOut = true ∧ Event.isHalt .zoneSensor = false ∧ running.line.state = .run ∧ station.line.state = .standby ∧
      running.hears (from_ 2 (.halt 4 2)) ⟨2, .halt 4 2⟩ ∧ station.hears (from_ 2 (.halt 4 2)) ⟨2, .halt 4 2⟩ ∧
      (after (.halt (from_ 2 (.halt 4 2))) running).line.state = .halting ∧ (after (.halt (from_ 2 (.halt 4 2))) running).line.haltOrigin = 2 ∧
      (after (.halt (from_ 2 (.halt 4 2))) station).line.state = .held ∧ (running.latch .rollOut).link.haltWaiting.isSome = true ∧
      (State.inLine station .held 0).hears (from_ 2 (.halt 4 2)) ⟨2, .halt 4 2⟩ ∧ station.link.haltClosed = false := by decide +kernel
theorem test_no_halt_class_event : ∀ e : Event, e.isHalt = true → station.events.has e = false := by
  intro e; cases e <;> decide
theorem test_all_members_heard :
    ∀ i : BitVec 4, (station.line.peer i).member = true → (station.line.peer i).state = .fresh ∨ (station.line.peer i).state = .released := by
  decide +kernel
/-- RUN taken, with an ARMED splice; refused for a STALE member, for a latched event, and in RUN; STOP at speed and at rest. -/
theorem test_witness_run_stop :
    station.hears (from_ 0 (.run 8 80000)) ⟨0, .run 8 80000⟩ ∧ running.hears (from_ 0 (.run 8 80000)) ⟨0, .run 8 80000⟩ ∧
      (after (.run (from_ 0 (.run 8 200000))) station).line.setpoint = 120000 ∧
      (let s := { station with splice := { station.splice with state := .armed, rollA := { state := .active, id := some 1, remaining := some 9 },
                                                               rollB := { state := .loaded, id := some 2, remaining := some 9 } } }
       s.splice.incomingLoaded = true ∧ (after (.run (from_ 0 (.run 8 80000))) s).splice.state = .matching) ∧
      (let s := { station with line := station.line.setPeer 4 { freshPeer with state := .stale } }
       (s.line.peer 4).member = true ∧ (s.line.peer 4).state = .stale ∧ (after (.run (from_ 0 (.run 8 1))) s).events.refusalCause = 1) ∧
      (after (.run (from_ 0 (.run 8 1))) { station with events := station.events.set .mapFull }).events.refusedKind = 0x10 ∧
      (after (.run (from_ 0 (.run 8 1))) running).events.refusalCause = 2 ∧
      running.hears (from_ 0 (.stop 8)) ⟨0, .stop 8⟩ ∧ station.hears (from_ 0 (.stop 8)) ⟨0, .stop 8⟩ ∧
      (after (.stop (from_ 0 (.stop 8))) running).line.state = .stopping ∧
      (after (.stop (from_ 0 (.stop 8))) (State.inLine station .run 0)).line.state = .standby := by decide +kernel
/-- A CLEAR in HELD with TRACK_LOST latched and a panel in the list; CONFIG_BAD stays. -/
theorem test_witness_clear :
    (let s := { State.holding (State.inLine station .held 0) [panelAt 7 0, (panelAt 8 1).mapPanel fun p => { p with cause := some .halted }] with
                events := (station.events.set .trackLost).set .linkError, splice := { station.splice with state := .inhibited } }
     s.hears (from_ 0 (.clear 8)) ⟨0, .clear 8⟩ ∧ s.line.state = .held ∧ s.events.has .trackLost = true ∧ s.splice.state = .inhibited ∧
       (let t := after (.clear (from_ 0 (.clear 8))) s
        t.line.state = .standby ∧ t.events.latched = 0 ∧ (t.panel? 7).map (fun p => p.cause) = some (some .trackLost) ∧
          (t.panel? 8).map (fun p => p.cause) = some (some .halted) ∧ t.splice.state = .armed)) ∧
      (after (.clear (from_ 0 (.clear 8))) { State.inLine station .held 0 with events := station.events.set .configBad }).line.state = .held := by
  decide +kernel
/-- A beacon of the nearest member above, of a station outside the roster; a silent peer in RUN and in STANDBY; RELEASE of the stale member 4,
of the own index, of index 9. -/
theorem test_witness_peers :
    station.hears (from_ 2 (.beacon 1 0 0 30000 0 0 0 0 0)) ⟨2, .beacon 1 0 0 30000 0 0 0 0 0⟩ ∧ (station.line.peer 2).member = true ∧
      (station.line.peer 9).member = false ∧ station.hears (from_ 9 (.beacon 1 0 0 30000 0 0 0 0 0)) ⟨9, .beacon 1 0 0 30000 0 0 0 0 0⟩ ∧
      station.boot.phase = .done ∧ (after (.beacon (from_ 2 (.beacon 1 0 0 30000 0 0 0 0 0))) station).nearestFresh = some 2 ∧
      (after (.beacon (from_ 2 (.beacon 1 0 0 30000 0 0 0 0 0))) station).line.qIn = 30000 ∧
      (let t := after (.beacon (from_ 2 (.beacon 1 0 0 30000 0 0 0 0 0))) { running with tracker := { running.tracker with speed := 60000 } }
       t.localSpeed = 27465 ∧ t.step0 = { inUse := .value 290, waiting := none } ∧ t.line.driveTimer = some 500000) ∧
      (running.line.peer 4).state = .fresh ∧ (running.line.peer 4).ageTimer ≠ none ∧
      (after (.peerAgeTimerExpiry 4) running).events.has .peerLost = true ∧ (after (.peerAgeTimerExpiry 4) running).line.state = .halting ∧
      (after (.peerAgeTimerExpiry 4) station).line.state = .standby ∧
      (let s := { station with line := station.line.setPeer 4 { freshPeer with state := .stale } }
       s.hears (from_ 0 (.release 8 4)) ⟨0, .release 8 4⟩ ∧ (4 : BitVec 4) ≠ s.boot.index ∧ (s.line.peer 4).state ≠ .fresh ∧
         (after (.release (from_ 0 (.release 8 4))) s).isLast = true ∧
         (after (.release (from_ 0 (.release 8 3))) s).events.refusalCause = 2 ∧
         (after (.release (from_ 0 (.release 8 9))) s).events.refusalCause = 4 ∧
         (after (.release (from_ 0 (.release 8 16))) s).events.refusalCause = 4) := by decide +kernel
/-- The ramp of Speed Agreement on a Three-Station Line: 60,000 to 59,960 at DEC; 400 at DEC_FAST, and HELD at 0. -/
theorem test_witness_ramp :
    running.line.rampTimer ≠ none ∧
      (let s := { running with line := { running.line with setpoint := 36000 } }
       s.target = 36000 ∧ (after .rampTimerExpiry s).line.vCmd = 59960) ∧
      (after .rampTimerExpiry running).line.vCmd = 60050 ∧ (after .rampTimerExpiry (State.inLine running .halting 36000)).line.vCmd = 35600 ∧
      (after .rampTimerExpiry (State.inLine running .halting 400)).line.state = .held ∧
      (after .rampTimerExpiry (State.inLine running .stopping 40)).line.state = .standby := by decide +kernel
/-- Entry into HELD with a panel folding: its play ends in RUNOUT and a notice of HALTED follows it; in TAIL nothing is done (R152). -/
theorem test_witness_held_at_blade :
    (let s (st : SeqState) : State :=
       State.inLine { blade with seq := { blade.seq with state := st, current := some (Context.outstanding 310 215 0 none) } } .halting 400
     (s .folding).isLast = false ∧ (s .folding).panel? 310 = none ∧
       (let t := after .rampTimerExpiry (s .folding)
        t.line.state = .held ∧ t.seq.state = .runout ∧ t.link.handoffFifo.map (fun f => f.payload) = [.handoffReject 310 5]) ∧
       (let t := after .rampTimerExpiry (State.holding (s .leadIn) [panelAt 310 0])
        (t.panel? 310).map (fun p => p.cause) = some (some .halted) ∧ t.link.handoffFifo = []) ∧
       (after .rampTimerExpiry (s .tail)).seq = (s .tail).seq) := by decide +kernel
theorem test_witness_target :
    running.line.state = .run ∧ running.target = 80000 ∧ station.target = 0 ∧
      ({ running with line := running.line.setPeer 4 { freshPeer with state := .absent } } : State).target = 0 ∧ 1 ≤ running.line.qIn := by
  decide +kernel
theorem test_witness_drive :
    (let s := { running with line := { running.line with driveTimer := some 500000 } }
     s.line.driveTimer ≠ none ∧ (after .driveFaultTimerExpiry s).line.state = .halting) ∧
      (after (.stepPeriodEnd .feed) { running with step0 := { inUse := .value 265, waiting := some .idle } }).step0 =
        { inUse := .idle, waiting := none } ∧
      (after (.stepPeriodEnd .newRoll) { running with step1 := { inUse := .value 9, waiting := some (.value 8) } }).step1 =
        { inUse := .value 8, waiting := none } := by decide +kernel
/-- Page 11 takes three parts, and page 12 is refused; with two frames waiting page 11 is dropped. -/
theorem test_witness_reports :
    station.hears (from_ 0 (.reportReq 8 11)) ⟨0, .reportReq 8 11⟩ ∧ station.hears (from_ 0 (.reportReq 8 12)) ⟨0, .reportReq 8 12⟩ ∧
      station.steam.zones.length ≤ 4 ∧ (after (.reportReq (from_ 0 (.reportReq 8 11))) station).link.generalFifo.length = 3 ∧
      (after (.reportReq (from_ 0 (.reportReq 8 12))) station).events.refusalCause = 4 ∧
      (let s := { station with link := { station.link with generalFifo := [frameA, frameA] } }
       (after (.reportReq (from_ 0 (.reportReq 8 11))) s).link.generalFifo.length = 2) ∧ (station.page 0).length = 21 := by decide +kernel

/-! ### Web Tracker -/

def rollsUp : Splice := { Splice.reset with rollA := { state := .active, id := some 1, remaining := some 3 }
                                            rollB := { state := .loaded, id := some 518, remaining := some 150000000 } }

/-- Worked Captures: 80 µs at 4 ticks is 50,000; a debt of 3 leaves one tick of advance; a roll with 3 left is counted down to 2. -/
theorem test_witness_forward :
    (let s := { origin with tracker := { origin.tracker with debt := 3, web := Capture.started }, splice := rollsUp }
     s.configured = true ∧ s.tracker.debt < s.cfg.encTicks ∧ s.tracker.web.timing = true ∧ (s.splice.roll .a).state = .active ∧
       (let t := after (.forwardEdge 80) s
        t.tracker.speed = 50000 ∧ t.tracker.position = 1 ∧ t.tracker.debt = 0 ∧ t.splice.rollA.remaining = some 2 ∧
          t.splice.rollB.remaining = some 150000000)) ∧
      (after (.forwardEdge 80) { running with tracker := { running.tracker with debt := 4 } }).tracker.position = 0 := by decide +kernel
theorem test_witness_reverse :
    running.configured = true ∧ (after .reverseEdge running).tracker.debt = 4 ∧
      (let t := after .reverseEdge { running with tracker := { running.tracker with debt := 4997, speed := 9 } }
       t.tracker.debt = 5001 ∧ t.events.has .trackLost = true ∧ t.tracker.speed = 0) ∧
      (after .reverseEdge { running with tracker := { running.tracker with debt := 999999 } }).tracker.debt = 1000000 := by decide +kernel
theorem test_witness_overflows :
    (let at_ (n : Nat) : State := { origin with tracker := { origin.tracker with web := { timing := true, timer := 9, overflows := n }
                                                                                 surface := { timing := true, timer := 9, overflows := n }
                                                                                 speed := 30, surfaceSpeed := 30 } }
     (at_ 3).configured = true ∧ (at_ 3).cfg.unwind = true ∧ (after (.captureTimerOverflow .web) (at_ 3)).tracker.speed = 0 ∧
       (after (.captureTimerOverflow .web) (at_ 2)).tracker.web.overflows = 3 ∧
       (after (.captureTimerOverflow .surface) (at_ 3)).tracker.surface.timing = false ∧
       (after (.captureTimerOverflow .surface) (at_ 2)).tracker.surfaceSpeed = 30) ∧
      (let s := { origin with tracker := { origin.tracker with surface := Capture.started } }
       (after (.surfaceEncoderEdge ⟨false, false⟩ ⟨true, false⟩ 80) s).tracker.surfaceSpeed = 50000 ∧
         (after (.surfaceEncoderEdge ⟨true, false⟩ ⟨false, false⟩ 80) s).tracker.surface.timing = false ∧
         (after (.surfaceEncoderEdge ⟨true, false⟩ ⟨false, true⟩ 80) s).tracker.surface = Capture.started) := by decide +kernel
/-- Panels Through the Origin: panel 41 from (12, 2); panel 45 blank with the last interval 120,000. -/
theorem test_witness_origin_mark :
    (let s := State.at_ { origin with plan := { entries := [{ pattern := 12, count := 2 }, { pattern := 30, count := 1 }], counter := 41, lastCreated := none } } 1000000
     s.boot.phase = .done ∧ s.cfg.markSensor = true ∧ s.cfg.origin = true ∧ s.tracker.lastMark ≠ some s.tracker.position ∧
       s.map.features.length < 32 ∧ s.plan.counter ∉ panelNumbers s.map.features ∧
       (let t := after .markSensed s
        panelNumbers t.map.features = [41] ∧ t.plan.counter = 42 ∧ t.plan.entries.map (fun e => (e.pattern, e.count)) = [(12, 1), (30, 1)])) ∧
      (let s (fs : List Feature) : State := State.holding (State.at_ origin 1000000) fs
       (after .markSensed (s [panelAt 1 0])).map = (s [panelAt 1 0]).map ∧ (after .markSensed (s [panelAt 1 0])).events = origin.events ∧
         (after .markSensed (s ((List.range 32).map fun n => panelAt n 0))).events.has .mapFull = true ∧
         (after .markSensed (s ((List.range 32).map fun n => panelAt n 0))).tracker.ref = none) ∧
      (let s := State.at_ { origin with plan := { PlanQueue.reset with counter := 4294967295 }, tracker := { origin.tracker with lastMark := some 1300600 } } 1420600
       let t := after .markSensed s
       (t.panel? 4294967295).map (fun p => (p.nominal, p.cause)) = some (some 120000, some .blank) ∧ t.plan.counter = 1 ∧
         t.tracker.lastInterval = some 120000) := by decide +kernel

def handoff101 : PendingHandoff := { number := 101, pattern := 12, nominal := 100000, cause := none, arrival := 1000000 }

/-- A Pairing Sequence: the mark at 1,000,800 claims 101; with nothing pending it waits; the fifth discards the oldest. -/
theorem test_witness_marks :
    (let s := State.at_ { running with tracker := { running.tracker with handoffs := [handoff101], misses := 1 } } 1000800
     s.boot.phase = .done ∧ s.cfg.origin = false ∧ s.tracker.lastMark ≠ some s.tracker.position ∧ s.map.features.length < 32 ∧
       101 ∉ panelNumbers s.map.features ∧
       (let t := after .markSensed s
        t.map.features.map (fun f => f.entry) = [1000800] ∧ t.tracker.misses = 0 ∧ t.tracker.handoffs = [])) ∧
      (after .markSensed (State.at_ running 5)).tracker.marks = [5] ∧
      (after .markSensed { running with tracker := { running.tracker with marks := [1, 2, 3, 4], position := 9 } }).tracker.marks = [2, 3, 4, 9] ∧
      (after .markSensed { running with tracker := { running.tracker with lastMark := some 0 } }).tracker.marks = [] := by decide +kernel
/-- Worked Stretch Updates: s is 66,060; at M 110,000 it is clamped to 69,632 with STRETCH_CLAMP; from a SYNTHESIZED reference it holds. -/
theorem test_witness_stretch :
    let s (entry : Pos) (claimed : Bool) : State :=
      State.at_ { running with
        tracker := { running.tracker with
          handoffs := [{ handoff101 with number := 208 }]
          ref := some { mark := 4899200, number := 207, nominal := some 100000, claimed := claimed, rejected := false } } } entry
    (s 5000000 true).tracker.lastMark ≠ some 5000000 ∧ travel 5000000 4899200 = 100800 ∧ (s 5000000 true).tracker.guard = none ∧
      208 ∉ panelNumbers (s 5000000 true).map.features ∧
      (after .markSensed (s 5000000 true)).tracker.stretch = 66060 ∧ (after .markSensed (s 5009200 true)).tracker.stretch = 69632 ∧
      (after .markSensed (s 5009200 true)).events.has .stretchClamp = true ∧ (after .markSensed (s 5000000 false)).tracker.stretch = 65536 ∧
      (after .markSensed (s 5100000 true)).tracker.stretch = 65536 := by decide +kernel
/-- The guard at the reference's mark and after p lets the update through, between the marks it holds s, as does an L of 0 or none yet; the origin's
mark, and a waiting mark that a handoff takes, update s alike (R60, R63, R70). -/
theorem test_witness_stretch_guard :
    let s (guard : Option Pos) (nominal : Option Nat) : State :=
      State.at_ { running with
        tracker := { running.tracker with
          handoffs := [{ handoff101 with number := 208 }]
          guard := guard
          ref := some { mark := 4899200, number := 207, nominal := nominal, claimed := true, rejected := false } } } 5000000
    (after .markSensed (s (some 4899200) (some 100000))).tracker.stretch = 66060 ∧
      (after .markSensed (s (some 5000001) (some 100000))).tracker.stretch = 66060 ∧
      (after .markSensed (s (some 4899201) (some 100000))).tracker.stretch = 65536 ∧
      (after .markSensed (s (some 5000000) (some 100000))).tracker.stretch = 65536 ∧
      (after .markSensed (s none (some 0))).tracker.stretch = 65536 ∧ (after .markSensed (s none none)).tracker.stretch = 65536 ∧
      (after .markSensed { s none (some 100000) with cfg := { config with origin := true } }).tracker.stretch = 66060 ∧
      (let s := { s none (some 100000) with
                  tracker := { (s none (some 100000)).tracker with handoffs := [], marks := [5000000], position := 5000700 } }
       s.tracker.marks.head? = some 5000000 ∧
         (after (.handoffPanel (from_ 2 (.handoffPanel 102 12 100000 0))) s).tracker.stretch = 66060) := by decide +kernel
/-- Panel 102's handoff claims the mark at 1,100,900; it waits without a mark; it is placed at once without a sensor. -/
theorem test_witness_panel_handoffs :
    running.hears (from_ 2 (.handoffPanel 102 12 100000 0)) ⟨2, .handoffPanel 102 12 100000 0⟩ ∧ running.source = some 2 ∧
      running.cfg.origin = false ∧ running.cfg.markSensor = true ∧ running.tracker.handoffs = [] ∧
      (after (.handoffPanel (from_ 2 (.handoffPanel 102 12 100000 0))) running).tracker.handoffs.length = 1 ∧
      (let s := State.at_ { running with tracker := { running.tracker with marks := [1100900], misses := 1 } } 1101500
       (after (.handoffPanel (from_ 2 (.handoffPanel 102 12 100000 0))) s).map.features.map (fun f => f.entry) = [1100900]) ∧
      (let s := State.at_ { running with cfg := { config with markSensor := false } } 70
       (after (.handoffPanel (from_ 2 (.handoffPanel 102 12 100000 0))) s).map.features.map (fun f => f.entry) = [70]) ∧
      (after (.handoffPanel (from_ 1 (.handoffPanel 102 12 100000 0))) running).tracker.handoffs = [] := by decide +kernel
/-- A fifth pending handoff: the oldest is placed SYNTHESIZED at its arrival with a miss; the second miss latches TRACK_LOST; a PANEL of a number
in the list, and one for a full list, are discarded (R64, R66, R76). -/
theorem test_witness_fifth_handoff :
    (let waiting : List PendingHandoff := [1, 2, 3, 4].map fun n => { handoff101 with number := n, arrival := BitVec.ofNat 32 n }
     let s (misses : Nat) (fs : List Feature) : State :=
       State.holding (State.at_ { running with tracker := { running.tracker with handoffs := waiting, misses := misses } } 9) fs
     let take (s : State) : State := after (.handoffPanel (from_ 2 (.handoffPanel 102 12 100000 0))) s
     (s 0 []).tracker.marks = [] ∧ ((take (s 0 [])).tracker.handoffs.map fun h => h.number) = [2, 3, 4, 102] ∧
       (take (s 0 [])).map.features.map (fun f => f.entry) = [1] ∧ (take (s 0 [])).tracker.misses = 1 ∧
       (take (s 0 [])).tracker.ref.map (fun r => r.claimed) = some false ∧ (take (s 0 [])).events.latched = Event.bit .markMissed ∧
       (take (s 1 [])).events.has .trackLost = true ∧ (take (s 0 [panelAt 1 0])).map = (s 0 [panelAt 1 0]).map ∧
       (take (s 0 [panelAt 1 0])).tracker.ref = none) ∧
      (let s (fs : List Feature) : State :=
         State.holding (State.at_ { running with tracker := { running.tracker with marks := [1100900] } } 1101500) fs
       let take (s : State) : State := after (.handoffPanel (from_ 2 (.handoffPanel 102 12 100000 0))) s
       (take (s [panelAt 102 0])).map = (s [panelAt 102 0]).map ∧ (take (s [panelAt 102 0])).events = running.events ∧
         (take (s ((List.range 32).map fun n => panelAt n 0))).events.has .mapFull = true) := by decide +kernel
/-- 103's window of 2,000 expires: a miss; the second in a row latches TRACK_LOST; an unclaimed mark's expiry is a stray mark. -/
theorem test_witness_windows :
    (let s (misses : Nat) (p : Pos) : State := State.at_ { running with tracker := { running.tracker with handoffs := [{ handoff101 with arrival := 1200000 }], misses := misses } } p
     travel (1202000 : Pos) 1200000 = 2000 ∧ (s 0 0).cfg.claimWindow = 2000 ∧ 101 ∉ panelNumbers (s 0 0).map.features ∧
       (after .handoffWindowExpiry (s 0 1202000)).events.latched = Event.bit .markMissed ∧ (after .handoffWindowExpiry (s 0 1202000)).tracker.misses = 1 ∧
       (after .handoffWindowExpiry (s 1 1202000)).line.state = .halting ∧ (after .handoffWindowExpiry (s 0 1201999)).tracker.handoffs.length = 1) ∧
      (let s (p : Pos) : State := State.at_ { running with tracker := { running.tracker with marks := [1203100] } } p
       (after .markWindowExpiry (s 1205100)).tracker.marks = [] ∧ (after .markWindowExpiry (s 1205100)).events.has .strayMark = true ∧
         (after .markWindowExpiry (s 1205099)).tracker.marks = [1203100]) := by decide +kernel

/-! ### Web Map and Plan Queue -/

/-- Every clause of `UpstreamSplicesAndRejectsAreTaken`, with a list of one PANEL, a pending handoff, and neither. -/
theorem test_witness_upstream :
    running.hears (from_ 2 (.handoffSplice 12)) ⟨2, .handoffSplice 12⟩ ∧ running.hears (from_ 2 (.handoffReject 88 6)) ⟨2, .handoffReject 88 6⟩ ∧
      running.source = some 2 ∧ (6 : Byte).toNat = RejectCause.code .underdosed ∧
      (after (.handoffSplice (from_ 2 (.handoffSplice 12))) (State.at_ running 77)).tracker.guard = some 77 ∧
      (after (.handoffSplice (from_ 2 (.handoffSplice 12))) (State.holding running ((List.range 32).map fun n => panelAt n 0))).events.has .mapFull = true ∧
      (after (.handoffReject (from_ 2 (.handoffReject 88 6))) (State.holding running [panelAt 88 0])).panel? 88 =
        (panelAt 88 0).panel?.map (fun p => { p with cause := some .underdosed }) ∧
      ((after (.handoffReject (from_ 2 (.handoffReject 101 6))) { running with tracker := { running.tracker with handoffs := [handoff101] } }).tracker.handoffs.map
        fun h => h.cause) = [some .underdosed] ∧
      (after (.handoffReject (from_ 2 (.handoffReject 88 6))) running).link.handoffFifo.map (fun f => f.payload) = [.handoffReject 88 6] ∧
      (after (.handoffReject (from_ 3 (.handoffReject 88 6))) lastStation).events.has .lateReject = true ∧ lastStation.source = some 3 ∧
      lastStation.isLast = true ∧ running.isLast = false ∧
      after (.handoffReject (from_ 2 (.handoffReject 88 0))) running = running.heard := by decide +kernel
theorem test_witness_plans :
    (let p (s : State) (n : Nat) (c : Nat) : State := after (.plan (from_ 0 (.plan 0x001E (BitVec.ofNat 16 n) (BitVec.ofNat 16 c)))) s
     origin.hears (from_ 0 (.plan 0x001E 4095 1)) ⟨0, .plan 0x001E 4095 1⟩ ∧ running.hears (from_ 0 (.plan 0x001E 4095 1)) ⟨0, .plan 0x001E 4095 1⟩ ∧
       (p running 12 2).events.refusalCause = 11 ∧ (p origin 4096 1).events.refusalCause = 4 ∧ (p origin 0 0).events.refusalCause = 4 ∧
       (p { origin with plan := { origin.plan with entries := List.replicate 16 { pattern := 1, count := 1 } } } 4095 1).events.refusalCause = 3 ∧
       (p origin 4095 1).plan.entries = [{ pattern := 4095, count := 1 }]) := by decide +kernel
/-- S7 reaches the entry: 42 gets SPLICED and (12, 1) goes back before (30, 1) (Panels Through the Origin). -/
theorem test_witness_entry :
    let s (fs : List Feature) : State :=
      State.holding (State.at_ { origin with plan := { entries := [{ pattern := 30, count := 1 }], counter := 43, lastCreated := some { number := 42, pattern := 12, planDrawn := true, inserted := true, cause := none } } } 1200000) fs
    (s []).cfg.origin = true ∧ travel (1200000 : Pos) 1200000 = 0 ∧ (s []).isLast = false ∧ ((s [panelAt 42 1100000]).panel? 42).isSome = true ∧
      (let t := after .spliceReachesEntry (s [panelAt 42 1100000, spliceAt 7 1200000])
       (t.panel? 42).map (fun p => p.cause) = some (some .spliced) ∧
         t.plan.entries = [{ pattern := 12, count := 1 }, { pattern := 30, count := 1 }]) ∧
      (after .spliceReachesEntry (s [spliceAt 7 1200000])).link.handoffFifo.map (fun f => f.payload) = [.handoffReject 42 2] ∧
      (after .spliceReachesEntry { s [spliceAt 7 1200000] with plan := PlanQueue.reset }).plan = PlanQueue.reset ∧
      (let full : State := { s [spliceAt 7 1200000] with link := { origin.link with handoffFifo := List.replicate 8 frameA } }
       let t := after .spliceReachesEntry full
       t.link = full.link ∧ t.events = full.events.set .lateReject ∧ t.plan.entries.length = 2 ∧
         (t.plan.lastCreated.map fun c => c.cause) = some (some .spliced)) ∧
      (let t := after .spliceReachesEntry (s [spliceAt 7 1200000, spliceAt 8 1200000])
       let u := after .spliceReachesEntry t
       t.plan.entries.length = 2 ∧ u.plan.entries = t.plan.entries ∧
         u.link.handoffFifo.map (fun f => f.payload) = [.handoffReject 42 2, .handoffReject 42 2]) := by decide +kernel
/-- The exit at 1,300,000 and every other end of `ExitsHandOnOrMoveTheGate`. -/
theorem test_witness_exits :
    (let s := State.holding (State.at_ running 40000) [panelAt 60 0, spliceAt 9 1]
     s.cfg.blade = false ∧ s.isLast = false ∧ (panelAt 60 0).hasPending = false ∧ travel (40000 : Pos) 0 = (s.cfg.lSpan : Int) ∧
       (after .featureAtExit s).link.handoffFifo.map (fun f => f.payload) = [.handoffPanel 60 12 100000 0] ∧
       (after .featureAtExit s).map.features = [spliceAt 9 1] ∧
       (let t := after .featureAtExit { s with link := { s.link with handoffFifo := List.replicate 8 frameA } }
        t.events.has .handoffBacklog = true ∧ t.line.state = .halting ∧ t.anyOverdue = true) ∧
       (after .featureAtExit (State.at_ s 39999)).map = s.map) ∧
      (let s (c : Option RejectCause) : State :=
         State.holding (State.at_ lastStation 40000) [{ panelAt 60 0 with body := .panel { number := 60, pattern := 0, nominal := some 1, outLen := .absent, dose := .absent, cause := c, planDrawn := false } }]
       (after .featureAtExit (s (some .halted))).map.gateOpen = true ∧
         (after .featureAtExit { s none with map := { (s none).map with gateOpen := true } }).map.gateOpen = false ∧
         (after .featureAtExit (s none)).map.features = []) ∧
      (let s := State.holding (State.at_ running 40000) [{ panelAt 60 0 with body := .panel { number := 60, pattern := 3, nominal := none, outLen := .absent, dose := .absent, cause := none, planDrawn := true } }]
       (after .featureAtExit s).link.handoffFifo = [] ∧ (after .featureAtExit s).map.features.map (fun f => f.reached) = [true]) := by decide +kernel

/-! ### The blade -/

def bladePanel (number : Nat) (entry : Pos) : Feature :=
  { panelAt number entry with
    body := .panel { number := number, pattern := 215, nominal := some 100000, outLen := .value 87000, dose := .absent, cause := none, planDrawn := false } }

def copied (number : Nat) (entry : Pos) : Context := (Context.outstanding number 215 entry (some 100000)).deliver (some pattern215)

/-- The blade station when its head feature is at the blade, with panel 310 folding. -/
def atBlade (f : Feature) (st : SeqState) (next : Option Context) : State :=
  State.holding
    (State.at_
      { blade with
        tracker := { blade.tracker with stretch := 66060 }
        seq := { blade.seq with state := st, current := some (copied 310 1), next := next, play := some (Play.setUp 1 (some pattern215) 65536) } }
      5040000)
    [f]

/-- A DELIVERED copy, an OUTSTANDING one, a truncation, and a clear position; the first strike of pattern 215 lies at 5,044,334. -/
theorem test_witness_panels_at_blade :
    (let s (st : SeqState) : State := atBlade (bladePanel 311 5000000) st (some (copied 311 5000000))
     (s .tail).cfg.blade = true ∧ (s .tail).isLast = false ∧ (bladePanel 311 5000000).hasPending = false ∧ travel (5040000 : Pos) 5000000 = 40000 ∧
       (s .tail).seq.clearPos = none ∧ (copied 311 5000000).delivered = true ∧
       (let t := after .featureAtExit (s .tail)
        t.seq.state = .folding ∧ (t.seq.play.bind fun p => p.strike).map (fun k => k.pos) = some 5044334 ∧
          t.link.handoffFifo.map (fun f => f.payload) = [.handoffPanel 311 215 87000 0]) ∧
       (after .featureAtExit (s .folding)).link.handoffFifo.map (fun f => f.payload) = [.handoffPanel 311 215 87000 0, .handoffReject 310 4]) ∧
      (after .featureAtExit (atBlade (bladePanel 311 5000000) .idle (some (Context.outstanding 311 215 5000000 (some 100000))))).seq.state = .leadIn ∧
      (let s := atBlade (bladePanel 311 5000000) .runout (some (copied 311 5000000))
       let t := after .featureAtExit { s with seq := { s.seq with clearPos := some 5041000 } }
       t.seq.state = .runout ∧ t.link.handoffFifo.map (fun f => f.payload) = [.handoffPanel 311 215 87000 0, .handoffReject 311 2]) := by
  decide +kernel
/-- A Splice Through the Blade: SPLICE 12 leaves, 310 is rejected SPLICED, and the clear position lies 3,000 on. -/
theorem test_witness_splices_at_blade :
    (∀ first : Bool,
     let s := (atBlade (spliceAt 12 5000000) .folding none).markReached
     let t := s.spliceExit first (spliceAt 12 5000000)
     s.endsPlay = true ∧ t.seq.state = .runout ∧ t.seq.clearPos = some 5043000 ∧ t.map.features = [] ∧
       t.link.handoffFifo.map (fun f => f.payload) =
         if first then [.handoffReject 310 2, .handoffSplice 12] else [.handoffSplice 12, .handoffReject 310 2]) ∧
      (after .featureAtExit (atBlade (spliceAt 12 5000000) .idle none)).seq.state = .idle ∧ travel (5040000 : Pos) 5043000 < 0 := by decide +kernel

def serving (s : State) (r : Requester) (panel : Nat) (found : Option Pattern) : State :=
  { s with store := { s.store with serving := some { lookup := { requester := r, panel := panel, id := 215 }, found := found, time := 10 } } }

def waitingPanel : Feature :=
  { panelAt 311 5000000 with
    body := .panel { number := 311, pattern := 215, nominal := some 100000, outLen := .pending, dose := .absent, cause := none, planDrawn := false } }

/-- The copy of the next panel and of the current one in LEAD_IN; a missing pattern; and the origin's nominal length. -/
theorem test_witness_lookups :
    (let s := State.holding blade [waitingPanel]
     s.nextPanel = (waitingPanel.panel?.map fun p => (p, waitingPanel)) ∧ (∀ g ∈ s.map.features, g.reached = false) ∧ s.seq.current = none ∧
       (let t := after .sequencerLookupComplete (serving s .insertion 311 (some pattern215))
        (t.seq.next.map fun c => (c.outLen, c.cMin, c.delivered)) = some (some 87040, some 2800, true) ∧ t.store.serving = none) ∧
       (let t := after .sequencerLookupComplete (serving s .insertion 311 none)
        (t.seq.next.map fun c => (c.outLen, c.delivered)) = some (some 100000, true) ∧ t.events.has .patternMissing = true)) ∧
      (let s := { blade with seq := { blade.seq with state := .leadIn, current := some (Context.outstanding 310 215 5000000 (some 100000)) }
                             tracker := { blade.tracker with stretch := 66060 } }
       let t := after .sequencerLookupComplete (serving s .lateCopy 310 (some pattern215))
       t.seq.state = .folding ∧ (t.seq.play.bind fun p => p.strike).map (fun k => k.pos) = some 5044334) ∧
      (let f : Feature := { panelAt 41 0 with body := .panel { number := 41, pattern := 215, nominal := none, outLen := .absent, dose := .pending, cause := none, planDrawn := true } }
       let s := State.holding origin [f]
       s.dose.queue = [] ∧ ((after .webMapLookupComplete (serving s .webMap 41 (some pattern215))).panel? 41).map (fun p => (p.nominal, p.dose)) =
           some (some 100000, .value 2500) ∧
         ((after .webMapLookupComplete (serving s .webMap 41 none)).panel? 41).map (fun p => (p.nominal, p.dose)) =
           some (some 40000, .value 2000)) := by decide +kernel
/-- A new next panel whose late copy of an earlier turn is still in flight asks for another; one whose insertion lookup waits asks for none (R135). -/
theorem test_next_panel_asks_again :
    (let s (r : Requester) : State :=
       let l : Lookup := { requester := r, panel := 311, id := 215 }
       { State.holding blade [waitingPanel] with store := { blade.store with phase := some .resuming, seqWaiting := [l] } }
     (s .lateCopy).settleNext.store.seqWaiting.length = 2 ∧ (s .insertion).settleNext.store.seqWaiting.length = 1) := by decide +kernel
/-- The strikes of patterns 215 and 402 as `StrikesFollowThePlayOrder` gives them. -/
theorem test_witness_play_order :
    structureGood pattern402.entries = true ∧ pattern402.entries.all Entry.counts = true ∧ (playOrder pattern402.entries).length = 18 ∧
      ((strikesFrom 5040000 66060 1500 (playOrder pattern215.entries)).map fun k => (k.pos.toNat, k.hand, k.depth)) =
        strikes pattern215 66060 10 (Play.setUp 5040000 (some pattern215) 66060) ∧
      ((strikesFrom 0 65536 2000 (playOrder pattern402.entries)).map fun k => (k.pos.toNat, k.hand, k.depth)) =
        strikes pattern402 65536 20 (Play.setUp 0 (some pattern402) 65536) := by decide +kernel
/-- A strike, an overrun, a missed fold; the end of a stroke; a clear position at hand. -/
theorem test_witness_strikes :
    (let p : Play := Play.setUp 5040000 (some pattern215) 66060
     let s := State.at_ { blade with seq := { blade.seq with state := .folding, current := some (copied 310 5000000), play := some p }
                                     tracker := { blade.tracker with stretch := 66060 } } 5044334
     p.strike.map (fun k => (k.pos, k.depth)) = some (5044334, 800) ∧ 310 ∉ panelNumbers s.map.features ∧ s.isLast = false ∧
       (let t := after .strikePositionReached s
        t.seq.bladeStrobe = true ∧ t.seq.bladeDepth = 800 ∧ t.seq.strokeTimer = some 20000 ∧ t.seq.state = .folding ∧
          (after .strokeTimerExpiry t).seq.bladeStrobe = false ∧ (after .strokeTimerExpiry t).seq.bladeDepth = 800) ∧
       (let t := after .strikePositionReached { s with seq := { s.seq with strokeTimer := some 1, bladeStrobe := true } }
        t.events.has .strokeOverrun = true ∧ t.seq.state = .runout ∧ t.link.handoffFifo.map (fun f => f.payload) = [.handoffReject 310 3]) ∧
       (after .strikePositionReached (State.inLine s .stopping 100)).link.handoffFifo.map (fun f => f.payload) = [.handoffReject 310 5] ∧
       (after .strikePositionReached (State.at_ s 5044333)).seq = s.seq) ∧
      (let s (p : Pos) : State := State.at_ { blade with seq := { blade.seq with state := .runout, clearPos := some 7206000 } } p
       (after .spliceClearPassed (s 7206000)).seq.clearPos = none ∧ (after .spliceClearPassed (s 7205999)).seq.clearPos = some 7206000) := by
  decide +kernel

/-! ### Pattern Store -/

def buffered (entries : List Entry) (announced : Nat) : State :=
  { station with
    store := { station.store with
      buffer := some { id := 215, nominal := 100000, leadIn := 1500, dose := 2500, announced := announced, nextSeq := 3, entries := entries } } }

/-- Loading Pattern 215: its frames; a repeated sequence number; a lead-in above L_nom; a count of 97. -/
theorem test_witness_buffer :
    station.hears (from_ 0 (.patOpen 8 215 100000 1500 2500 5)) ⟨0, .patOpen 8 215 100000 1500 2500 5⟩ ∧
      (after (.patOpen (from_ 0 (.patOpen 8 215 100000 1500 2500 5))) station).store.buffer =
        some { id := 215, nominal := 100000, leadIn := 1500, dose := 2500, announced := 5, nextSeq := 0, entries := [] } ∧
      ((after (.patOpen (from_ 0 (.patOpen 8 4095 1 30000 65535 96))) (buffered [] 5)).store.buffer.map fun b => (b.nominal, b.leadIn, b.dose)) =
        some (20000, 20000, 60000) ∧
      (after (.patOpen (from_ 0 (.patOpen 8 215 1 1 1 97))) station).events.refusalCause = 4 ∧
      station.hears (from_ 0 (.patStep 8 3 [.mirror, .flat 0])) ⟨0, .patStep 8 3 [.mirror, .flat 0]⟩ ∧
      ((after (.patStep (from_ 0 (.patStep 8 3 [.mirror, .flat 0]))) (buffered [] 2)).store.buffer.map fun b => b.entries) = some [.mirror, .flat 1] ∧
      (after (.patStep (from_ 0 (.patStep 8 3 [.mirror, .flat 0]))) (buffered [] 1)).events.has .loadFailed = true ∧
      (after (.patStep (from_ 0 (.patStep 8 2 [.mirror]))) (buffered [] 5)).store.buffer = none ∧
      (after (.patStep (from_ 0 (.patStep 8 0 [.mirror]))) station).events.has .loadFailed = true := by decide +kernel

def slot (st : SlotState) (id : Nat) (version : Nat) : SlotRecord := { state := st, id := some id, version := some version, count := some 5 }
def copyOf (p : Pattern) (version : Nat) : Option NvRecord :=
  some { pattern := p, version := version, marker := true, checkGood := true, retired := false }

/-- Slot 9 holds 215, version 40; the counter stands at 56. -/
def stored (s : State) : State :=
  { s with store := { (s.store.setRecord 9 (slot .valid 215 40)).setCell 9 (copyOf pattern215 40) with counter := some 56 } }

/-- The five checks of a close and the close that passes; the four ends of an erase. -/
theorem test_witness_close :
    (let close (s : State) : State := after (.patClose (from_ 0 (.patClose 8 215 5))) s
     let good := buffered pattern215.entries 5
     good.hears (from_ 0 (.patClose 8 215 5)) ⟨0, .patClose 8 215 5⟩ ∧ (close station).events.refusalCause = 5 ∧
       (close (buffered [.flat 1] 5)).events.refusalCause = 5 ∧
       (close (buffered [.close, .close, .close, .close, .close] 5)).events.refusalCause = 6 ∧
       (close (buffered [.flat 90000, .flat 9000, .flat 1, .flat 1, .flat 1] 5)).events.refusalCause = 7 ∧
       (close { stored good with cfg := { config with protectBoundary := 215 } }).events.refusalCause = 8 ∧
       (close { good with store := { good.store with table := Vector.replicate 32 (slot .valid 9 1) } }).events.refusalCause = 9 ∧
       (close good).store.phase = some .writing ∧ (close good).store.opTime = 21250 ∧ ((close good).store.record 0).state = .programming) ∧
      (let erase (s : State) (p : BitVec 16) : State := after (.patErase (from_ 0 (.patErase 8 p))) s
       station.hears (from_ 0 (.patErase 8 215)) ⟨0, .patErase 8 215⟩ ∧ (erase station 4096).events.refusalCause = 4 ∧
         (erase station 100).events.refusalCause = 8 ∧ (erase station 215).events.refusalCause = 10 ∧
         ((erase (stored station) 215).store.record 9).state = .erasing ∧ (erase (stored station) 215).store.ops = [.erase 9] ∧
         ((erase { stored station with store := { (stored station).store with phase := some .writing, ops := [.erase 0] } } 215).store.record 9).state =
           .retired) := by decide +kernel

/-- A program of slot 3 over the stored copy. -/
def programming : State :=
  let s := stored station
  { s with store := { s.store.setRecord 3 { slot .programming 215 0 with version := none } with ops := [.program 3 pattern215], phase := some .writing } }

/-- A Program Set Aside by Lookups: version 57 in slot 3, slot 9 erasing; suspended, resumed; then slot 9 EMPTY. -/
theorem test_witness_nv :
    programming.store.serving = none ∧ (programming.store.record 9).state = .valid ∧ (programming.store.record 9).id = some pattern215.id ∧
      (let t := after .nvProgramComplete programming
       t.store.counter = some 57 ∧ t.store.record 3 = slot .valid 215 57 ∧ (t.store.record 9).state = .erasing ∧ t.store.ops = [.erase 9] ∧
         t.store.opTime = 45000 ∧ (after .nvEraseComplete t).store.record 9 = SlotRecord.cleared ∧ (after .nvEraseComplete t).store.cell 9 = none ∧
         (after .nvEraseComplete t).store.ops = []) ∧
      (let l : Lookup := { requester := .insertion, panel := 1, id := 215 }
       let s := { programming with store := { programming.store with phase := some .suspending, seqWaiting := [l], mapWaiting := [l] } }
       (after .suspendEnd s).store.phase = some .suspended ∧ ((after .suspendEnd s).store.serving.map fun v => v.time) = some 20 ∧
         (after .suspendEnd { s with store := { s.store with seqWaiting := [] } }).store.mapWaiting = []) ∧
      (let s := { programming with store := { programming.store with phase := some .resuming } }
       (after .resumeEnd s).store.phase = some .writing ∧
         (after .resumeEnd { s with store := { s.store with mapWaiting := [{ requester := .webMap, panel := 1, id := 215 }] } }).store.phase =
           some .suspending) := by decide +kernel

/-- A program set aside leaves the array as it is, whatever a stopped operation may leave; a program in WRITING may be left complete (R116). -/
theorem test_tear_in_writing_alone :
    (let set (phase : NvPhase) : Store := { programming.store with phase := some phase }
     let torn : NvTear := { completed := true, oldRetired := true, counter := .written, eraseLeftWhole := false }
     ([NvPhase.suspending, .suspended, .resuming].all fun ph => decide (((set ph).tearOp torn).nv = (set ph).nv ∧ ((set ph).tearOp torn).counter = some 56)) =
         true ∧
       ((set .writing).tearOp torn).counter = some 57 ∧ (((set .writing).tearOp torn).cell 9).map (fun r => r.retired) = some true) := by
  decide +kernel

/-! ### Steam and dose -/

def zoned (s : State) (z : Zone) : State := { s with steam := { s.steam with zones := [z], converting := [0] } }

/-- A Sensor Lead Breaks and Is Mended, samples 1, 4, 6 and 9; a period's start and the end of the active stretch. -/
theorem test_witness_zones :
    (let convert (z : Zone) (raw : BitVec 12) : State := after (.zoneConversionComplete 0 raw) (zoned steamer z)
     let z := freshZone zoneA
     (zoned steamer z).steam.converting = [0] ∧ (zoned steamer z).steam.zones[0]? = some z ∧ steamer.steam.sampleTimer ≠ none ∧
       ((convert z 2900).steam.zones.map fun y => (y.temperature, y.inBand)) = [(some 1770, true)] ∧
       ((convert { z with bad := 2, duty := 100, active := true } 4087).steam.zones.map fun y => (y.faulted, y.duty, y.active)) = [(true, 0, false)] ∧
       (convert { z with bad := 2 } 8).events.has .zoneSensor = true ∧ (convert { z with bad := 1 } 8).events.has .zoneSensor = false ∧
       ((convert { z with faulted := true, good := 1 } 4091).steam.zones.map fun y => y.good) = [0] ∧
       ((convert { z with faulted := true, good := 1 } 2905).steam.zones.map fun y => (y.good, y.temperature, y.faulted)) = [(2, some 1773, true)] ∧
       ((convert { z with faulted := true, good := 2 } 2910).steam.zones.map fun y => (y.bad, y.temperature, y.faulted)) = [(0, some 1776, false)] ∧
       (after .sampleTimerExpiry steamer).steam.converting = [0] ∧
       ((after (.valvePeriodStart 0) (zoned steamer { z with pendingDuty := some 467 })).steam.zones.map fun y => (y.duty, y.active)) = [(467, true)] ∧
       ((after (.valveActiveEnd 0) (zoned steamer { z with duty := 467, active := true })).steam.zones.map fun y => y.active) = [false] ∧
       ((after (.valveActiveEnd 0) (zoned steamer { z with duty := 500, active := true })).steam.zones.map fun y => y.active) = [true]) := by
  decide +kernel

/-- Polarity 0 and 1, active and inactive; a zone that is not fitted, and CONFIG_BAD (R155). -/
theorem test_witness_valve_levels :
    (let level (active low : Bool) : PinLevel :=
       (zoned steamer { freshZone { zoneA with activeLow := low } with active := active }).valveLevel 0
     level true false = .high ∧ level false false = .low ∧ level true true = .low ∧ level false true = .high ∧
       steamer.valveLevel 1 = .undriven ∧ ({ steamer with events := steamer.events.set .configBad } : State).valveLevel 0 = .undriven) := by
  decide +kernel

def segment (close : Pos) (required : Option Nat) (dose : Nat) : Segment :=
  { close := close, panel := 87, required := required, splice := false, rejected := false, dose := dose }

def queued (s : State) (gs : List Segment) : State := { s with dose := { s.dose with queue := gs, nextBoundary := 2000000 } }

/-- A tick in an in-band zone and outside it; the boundary at 2,000,000 (Segments of Two Panels); a good, an exempt, a held and an underdosed
segment at the exit. -/
theorem test_witness_doses :
    (let s := { State.at_ (queued steamer [segment 0 (some 2900) 65529, segment 7500 none 0]) 7500 with
                steam := { steamer.steam with zones := [{ freshZone zoneA with inBand := true }] } }
     s.dose.timer ≠ none ∧ ((after .doseTimerExpiry s).dose.queue.map fun g => g.dose) = [65539, 0] ∧
       ((after .doseTimerExpiry { s with dose := { s.dose with queue := [segment 0 none 65530] } }).dose.queue.map fun g => g.dose) = [65535]) ∧
      (let f : Feature := { panelAt 87 1968000 with body := .panel { number := 87, pattern := 1, nominal := some 1, outLen := .absent, dose := .value 2900, cause := none, planDrawn := false } }
       let s := State.holding (State.at_ (queued steamer []) 2000000) [f, spliceAt 1 2000000]
       (after .segmentBoundary s).dose.queue = [{ segment 2000000 (some 2900) 0 with splice := true }] ∧
         (after .segmentBoundary s).dose.nextBoundary = 2005000 ∧ (after .segmentBoundary (State.at_ s 1999999)).dose.queue = []) ∧
      (let s (g : Segment) : State := State.at_ (queued steamer [g]) 40000
       travel (40000 : Pos) 0 = 40000 ∧ (after .segmentAtExit (s (segment 0 (some 2900) 2900))).dose.queue = [] ∧
         (after .segmentAtExit (s (segment 0 none 0))).dose.queue.length = 1 ∧
         (after .segmentAtExit (s { segment 0 none 0 with splice := true })).dose.queue = [] ∧
         (let t := after .segmentAtExit (s (segment 0 (some 2900) 2890))
          t.dose.lastRejected = 87 ∧ t.link.handoffFifo.map (fun f => f.payload) = [.handoffReject 87 6]) ∧
         (after .segmentAtExit (State.at_ (s (segment 0 (some 2900) 0)) 39999)).dose.queue.length = 1) := by decide +kernel

/-! ### Roll change -/

def spliced (st : SpliceState) : State :=
  { origin with splice := { rollsUp with state := st, rampTimer := some 1000, matchTimer := some 200000, matchTimeout := some 10000000
                                         strobeTimer := some 150000, counter := 4 } }

theorem test_witness_rolls :
    (let roll (s : State) (position : Byte) (length : BitVec 32) : State := after (.roll (from_ 0 (.roll 0x001E position 518 length))) s
     origin.hears (from_ 0 (.roll 0x001E 1 518 9)) ⟨0, .roll 0x001E 1 518 9⟩ ∧ running.hears (from_ 0 (.roll 0x001E 1 518 9)) ⟨0, .roll 0x001E 1 518 9⟩ ∧
       (roll running 0 9).events.refusalCause = 11 ∧ (roll origin 2 9).events.refusalCause = 4 ∧ (roll origin 0 0).events.refusalCause = 4 ∧
       (roll (spliced .armed) 0 9).events.refusalCause = 2 ∧ (roll (spliced .matching) 1 9).events.refusalCause = 2 ∧
       (roll (spliced .cutting) 1 9).events.refusalCause = 2 ∧
       (roll origin 0 0xFFFFFFFF).splice.rollA = { state := .active, id := some 518, remaining := some 2147483648 } ∧
       (roll origin 0 2000000).splice.state = .armed ∧ (roll origin 0 2000001).splice.state = .idle ∧
       (roll (spliced .armed) 1 9).splice.state = .matching ∧ (roll (spliced .idle) 1 9).splice.rollB.remaining = some 9) := by decide +kernel
theorem test_witness_run_out :
    (let s (st : SpliceState) : State := { spliced st with splice := { (spliced st).splice with rollA := { state := .active, id := some 1, remaining := some 0 } } }
     ((s .idle).splice.roll .a).state = .active ∧ ((s .idle).splice.roll (Side.other .a)).state = .loaded ∧
       (after .rollRunOut (s .matching)).splice.state = .idle ∧ (after .rollRunOut (s .matching)).splice.matchTimer = none ∧
       (after .rollRunOut (s .pasting)).splice.state = .pasting ∧ (after .rollRunOut (s .idle)).line.state = .halting ∧
       (after .rollRunOut (s .idle)).splice.rollA = Roll.none) ∧
      (spliced .idle).boot.phase = .done ∧ (after .spliceArming (spliced .idle)).splice.state = .matching ∧
      (after .spliceArming (State.inLine (spliced .idle) .stopping 9)).splice.state = .armed ∧
      (after .spliceArming { spliced .idle with cfg := { (spliced .idle).cfg with spliceAt := 2 } }).splice.state = .idle := by decide +kernel
/-- A Flying Splice: SPLICE 4 P_dist ahead at the complete match; the strobes; the ramp by ACC; the timeout. -/
theorem test_witness_match :
    (spliced .matching).splice.state = .matching ∧ (spliced .matching).localSpeed = 60000 ∧
      (after .spliceRampTimerExpiry (spliced .matching)).splice.vNew = 50 ∧
      (let t := after .matchTimerExpiry (spliced .matching)
       t.splice.state = .pasting ∧ t.splice.paste = true ∧ t.splice.rollA.state = .expiring ∧ t.splice.rollB.state = .active ∧
         t.splice.counter = 5 ∧ t.splice.vNew = 60000 ∧ t.map.features = [spliceAt 4 50000] ∧
         (let u := after .pasteStrobeEnd t
          u.splice.cut = true ∧ u.splice.paste = false ∧ u.splice.strobeTimer = some 50000 ∧
            (after .cutStrobeEnd u).splice.state = .idle ∧ (after .cutStrobeEnd u).splice.rollA = Roll.none ∧ (after .cutStrobeEnd u).splice.vNew = 0)) ∧
      (after .matchTimeoutExpiry (spliced .matching)).splice.state = .inhibited ∧
      (after .matchTimeoutExpiry (spliced .matching)).events.has .spliceFailed = true := by decide +kernel

/-! ### The clauses on what follows an insertion, a lookup, a beacon and a reset -/

/-- The ratio, the lead event and the event count of the beacon a state builds. -/
def beaconOf (s : State) : Option (Nat × Nat × Nat) :=
  (after .beaconTimerExpiry s).link.beaconWaiting.bind fun f =>
    match f.payload with
    | .beacon _ _ _ q lead count _ _ _ => some (q.toNat, lead.toNat, count.toNat)
    | _ => none

/-- In FOLDING 65,536 x 57,042 / 65,536; before the configuration is good 65,536; events 4 and 12 latched (R26, R47, R201). -/
theorem test_witness_beacon_values :
    (let s : State := { blade with seq := { blade.seq with state := .folding, current := some (copied 310 1) } }
     s.link.beaconTimer ≠ none ∧ beaconOf s = some (57042, 0, 0) ∧ beaconOf { s with seq := { s.seq with state := .runout } } = some (65536, 0, 0)) ∧
      (let s : State := { running with events := (running.events.set .markMissed).set .trackLost }
       beaconOf s = some (65536, 4, 2)) ∧
      (let s : State := { station with line := { station.line with state := .starting, qIn := 30000 } }
       beaconOf s = some (65536, 0, 0) ∧ beaconOf { s with line := { s.line with state := .standby } } = some (30000, 0, 0)) := by
  decide +kernel

/-- A generator that is idle already takes no step end: an idle placed there waits (log 24). -/
theorem test_witness_idle_placed :
    ({ inUse := .idle, waiting := none } : Stepper).place .idle = { inUse := .idle, waiting := some .idle } := by decide

/-- A SPLICE that a full list discards sets no guard, and makes the stretch reference absent: from a handoff, and from the Splice Unit; so
does a PANEL that is discarded at a station without the mark sensor (R69, R76). -/
theorem test_witness_discards :
    let full : List Feature := (List.range 32).map fun n => panelAt n 0
    let ref : StretchRef := { mark := 0, number := 9, nominal := some 100000, claimed := true, rejected := false }
    let s (base : State) : State := State.holding (State.at_ { base with tracker := { base.tracker with guard := some 5, ref := some ref } } 77) full
    let result (t : State) : Bool × Option Pos × Option StretchRef := (t.events.has .mapFull, t.tracker.guard, t.tracker.ref)
    result (after (.handoffSplice (from_ 2 (.handoffSplice 12))) (s running)) = (true, some 5, none) ∧
      result (after .matchTimerExpiry (s (spliced .matching))) = (true, some 5, none) ∧
      result (after (.handoffPanel (from_ 2 (.handoffPanel 9 12 100000 0))) { s running with cfg := { config with markSensor := false }, map := { (s running).map with features := [panelAt 9 0] } }) =
        (false, some 5, none) := by decide +kernel

/-- The origin's panel that a full list discards is the last created one, and a splice at the entry offers its notice and gives no count
back; the same panel inserted gives its count back (R89, R92, R93, log 28). -/
theorem test_witness_discarded_panel :
    (let plan : PlanQueue := { entries := [{ pattern := 12, count := 2 }], counter := 41, lastCreated := none }
     let s (fs : List Feature) : State := State.holding (State.at_ { origin with plan := plan } 1000000) fs
     let full : List Feature := (List.range 31).map (fun n => panelAt n 0) ++ [spliceAt 7 1000000]
     let t := after .markSensed (s full)
     let u := after .spliceReachesEntry t
     (t.plan.lastCreated.map fun c => (c.number, c.planDrawn, c.inserted)) = some (41, true, false) ∧
       t.plan.entries = [{ pattern := 12, count := 1 }] ∧ u.plan.entries = t.plan.entries ∧
       u.link.handoffFifo.map (fun f => f.payload) = [.handoffReject 41 2] ∧
       (let v := after .markSensed (s [spliceAt 7 1000000])
        (v.plan.lastCreated.map fun c => c.inserted) = some true ∧
          (after .spliceReachesEntry v).plan.entries = [{ pattern := 12, count := 2 }])) := by decide +kernel

/-- RESTART in STANDBY with a program set aside: the array stays as it was (R18, R116). -/
theorem test_witness_restart_in_operation :
    (let s : State := { programming with store := { programming.store with phase := some .suspended } }
     let t := after (.restart (from_ 0 (.restart 8))) s
     s.hears (from_ 0 (.restart 8)) ⟨0, .restart 8⟩ ∧ s.line.state = .standby ∧ s.splice.state = .idle ∧ t.events.resetCause = .restart ∧
       t.store.nv = s.store.nv ∧ t.store.counter = s.store.counter ∧ t.store.ops = []) ∧
      (programming.store.phase = some .writing ∧ programming.line.state = .standby) := by decide +kernel

/-- The block passes every test that `GoodBlocksPassTheTests` takes as a premise. -/
theorem test_witness_good_block :
    (let word (i : Nat) : Nat := (block.getD i 0xFFFF).toNat
     let pair (i : Nat) : Nat := 65536 * word i + word (i + 1)
     word 0 = 0x41B6 ∧ word 1 = 69 ∧ ((List.range 69).map word).sum % 65536 = 0 ∧ word 3 / 256 % 8 = 1 ∧
       (word 2 % 2 = 0 ∧ (word 2).testBit 3 = true ∧ word 3 / 64 % 4 = 0 ∧ word 3 / 2048 = 0) ∧
       ((1 ≤ word 4 ∧ word 4 ≤ 16) ∧ (1 ≤ word 5 ∧ word 5 ≤ 64) ∧ (1 ≤ word 6 ∧ word 6 ≤ 64) ∧ (1000 ≤ pair 7 ∧ pair 7 ≤ 200000) ∧
         (1 ≤ word 9 ∧ word 9 ≤ 10000) ∧ (1 ≤ word 10 ∧ word 10 ≤ 10000) ∧ (1 ≤ word 11 ∧ word 11 ≤ 10000) ∧
         (1000 ≤ pair 12 ∧ pair 12 ≤ 2000000) ∧ pair 14 ≤ pair 12 ∧ (100 ≤ word 16 ∧ word 16 ≤ 5000) ∧ (4 ≤ word 17 ∧ word 17 ≤ 50) ∧
         word 18 ≤ 60000 ∧ (500 ≤ word 19 ∧ word 19 ≤ 10000) ∧ word 20 ≤ 60000 ∧ (1000 ≤ pair 21 ∧ pair 21 ≤ 100000000) ∧
         (1000 ≤ pair 23 ∧ pair 23 ≤ pair 7) ∧ pair 25 ≤ 2000000 ∧ word 27 ≤ 4095) ∧
       (pair 28 < pair 30 ∧ pair 30 ≤ pair 12 ∧ word 32 ≤ 2500 ∧ word 33 ≤ word 32 ∧ word 34 ≤ 200 ∧ (100 ≤ word 36 ∧ word 36 ≤ 5000) ∧
         word 37 ≤ 1) ∧
       ((word 3).testBit 3 = false ∧ (word 3).testBit 4 = false ∧ (word 3).testBit 0 = false ∧ pair 12 ≤ 64 * word 19)) := by decide +kernel

/-- Station 3 with the gate, member 4 STALE, and three features: two that are OVERDUE, the second with a cause. -/
def overdueAt (s : PeerState) : State :=
  let late (n : Nat) (c : Option RejectCause) : Feature := { (panelAt n 0).mapPanel (fun p => { p with cause := c }) with reached := true, overdue := true }
  State.holding { running with cfg := { config with rejectGate := true }, line := running.line.setPeer 4 { freshPeer with state := s } }
    [late 60 none, late 61 (some .halted), panelAt 62 5]

/-- RELEASE of 4 makes station 3 the last: it takes both OVERDUE panels, and the gate is open for the second; a BEACON of 4 makes it no
longer the last, and closes the gate (R81, R82). -/
theorem test_witness_last :
    (let s := overdueAt .stale
     let t := after (.release (from_ 0 (.release 8 4))) s
     s.hears (from_ 0 (.release 8 4)) ⟨0, .release 8 4⟩ ∧ s.isLast = false ∧ t.isLast = true ∧ t.map.features = [panelAt 62 5] ∧
       t.map.gateOpen = true ∧ t.link.handoffFifo = []) ∧
      (let s : State := { overdueAt .released with map := { (overdueAt .released).map with gateOpen := true } }
       let t := after (.beacon (from_ 4 (.beacon 1 0 0 30000 0 0 0 0 0))) s
       s.hears (from_ 4 (.beacon 1 0 0 30000 0 0 0 0 0)) ⟨4, .beacon 1 0 0 30000 0 0 0 0 0⟩ ∧ s.isLast = true ∧ t.isLast = false ∧
         t.map = { s.map with gateOpen := false }) := by decide +kernel

/-- Pages 1, 4, 10 and 11, byte by byte by R206. -/
theorem test_witness_pages :
    (zoned steamer { freshZone zoneA with temperature := some 1770, setpointInUse := 1800, duty := 467, integrator := -1, inBand := true }).page 1 =
        [1, 0, 0x06, 0xEA, 0x07, 0x08, 0x01, 0xD3, 0xFF, 0xFF, 0xFF, 1] ∧
      (((stored station).page 4).drop 7).take 7 = [0, 0xD7, 2, 0, 0, 0, 40] ∧
      (State.holding running [(panelAt 60 258).mapPanel (fun p => { p with cause := some .halted }), spliceAt 9 1]).page 10 =
        [2, 1, 0, 0, 0, 60, 0, 0, 1, 2, 5, 0, 2, 0, 0, 0, 9, 0, 0, 0, 1, 0, 0] ∧
      ({ spliced .matching with plan := { entries := [{ pattern := 12, count := 2 }], counter := 41, lastCreated := none } } : State).page 11 =
        [2, 0, 1, 0, 0, 0, 3, 1, 0x02, 0x06, 0x08, 0xF0, 0xD1, 0x80, 2, 0, 0, 0, 4, 0, 0, 0, 1, 0, 12, 0, 2, 0, 0, 0, 41] := by
  decide +kernel

/-- An insertion at the blade asks the Sequencer's lookup and settles the next context; at a steam station and for a plan-drawn panel at the
origin it asks the Web Map's; a second panel behind the first leaves the context (R77, R112 to R114, R132 to R136). -/
theorem test_witness_insertions :
    (let s (h : PendingHandoff) : State := State.at_ { blade with tracker := { blade.tracker with handoffs := [h] } } 1000800
     (s handoff101).seq.next.map (fun c => c.panel) = (s handoff101).nextPanelNumber ∧
       (let t := after .markSensed (s handoff101)
        t.nextPanelNumber = some 101 ∧ (t.seq.next.map fun c => (c.panel, c.entry, c.delivered)) = some (101, 1000800, false) ∧
          (t.store.serving.map fun v => v.lookup) = some { requester := .insertion, panel := 101, id := 12 } ∧ t.store.mapWaiting = [] ∧
          (t.panel? 101).map (fun p => (p.outLen, p.dose)) = some (.pending, .absent) ∧
          (let u := after .markSensed (State.at_ { t with tracker := { t.tracker with handoffs := [{ handoff101 with number := 102 }] } } 1101000)
           t.seq.next.map (fun c => c.panel) = t.nextPanelNumber ∧ u.seq = t.seq ∧
             u.store.seqWaiting = [{ requester := .insertion, panel := 102, id := 12 }])) ∧
       (let t := after .markSensed (s { handoff101 with pattern := 0 })
        (t.seq.next.map fun c => (c.outLen, c.delivered)) = some (some 100000, true) ∧ t.store = blade.store)) ∧
      (let t := after .markSensed (State.at_ { steamer with tracker := { steamer.tracker with handoffs := [handoff101] } } 1000800)
       (t.store.serving.map fun v => v.lookup) = some { requester := .webMap, panel := 101, id := 12 } ∧
         (t.panel? 101).map (fun p => (p.outLen, p.dose)) = some (.absent, .pending)) ∧
      (let t := after .markSensed (State.at_ { origin with plan := { entries := [{ pattern := 12, count := 2 }], counter := 41, lastCreated := none } } 9)
       (t.store.serving.map fun v => v.lookup) = some { requester := .webMap, panel := 41, id := 12 }) ∧
      (let s : State := State.at_ { running with tracker := { running.tracker with handoffs := [{ handoff101 with arrival := 1200000, cause := some .overrun }] } } 1202000
       let t := after .handoffWindowExpiry s
       s.tracker.misses = 0 ∧ ((t.panel? 101).map fun p => (p.pattern, p.nominal, p.cause)) = some (12, some 100000, some .overrun) ∧
         t.tracker.ref.map (fun r => r.rejected) = some true) := by decide +kernel

/-- Panel 87 with its nominal length and its dose pending, at the head and waiting at the exit. -/
def heldPanel (nominal : Option Nat) : Feature :=
  { panelAt 87 0 with
    body := .panel { number := 87, pattern := 215, nominal := nominal, outLen := .absent, dose := .pending, cause := none, planDrawn := false }
    reached := true }

/-- The lookup releases the held exit, and the SPLICE behind it; its dose judges the segment at the exit; with both, UNDERDOSED is on the
HANDOFF or in a notice behind it (R77, R82, R172, R176 to R178). -/
theorem test_witness_releases :
    (let s (base : State) : State :=
       serving (State.holding (State.at_ base 40000) [heldPanel none, { spliceAt 9 0 with reached := true }, panelAt 88 5]) .webMap 87 (some pattern215)
     let payloads (t : State) : List Payload := t.link.handoffFifo.map fun f => f.payload
     (s running).isLast = false ∧ payloads (after .webMapLookupComplete (s running)) = [.handoffPanel 87 215 100000 0, .handoffSplice 9] ∧
       (after .webMapLookupComplete (s running)).map.features = [panelAt 88 5] ∧
       (after .webMapLookupComplete (s lastStation)).map.features = [panelAt 88 5] ∧ payloads (after .webMapLookupComplete (s lastStation)) = []) ∧
      (let s (f : Feature) (dose : Nat) : State :=
         serving (State.holding (State.at_ (queued steamer [segment 0 none dose, segment 5000 none 0]) 40000) [f]) .webMap 87 (some pattern215)
       let f : Feature := { heldPanel (some 1) with reached := false }
       let t := after .webMapLookupComplete (s f 2490)
       let u := after .webMapLookupComplete (s f 2500)
       travel (40000 : Pos) 0 = (steamer.cfg.lSpan : Int) ∧ t.dose.queue = [segment 5000 (some 2500) 0] ∧ t.dose.lastRejected = 87 ∧
         (t.panel? 87).map (fun p => p.cause) = some (some .underdosed) ∧ u.dose.queue = [segment 5000 (some 2500) 0] ∧
         u.dose.lastRejected = steamer.dose.lastRejected) ∧
      (∀ judgeFirst : Bool,
        let s := State.holding (State.at_ (queued steamer [segment 0 (some 2500) 2490]) 40000)
          [(heldPanel (some 1)).mapPanel fun p => { p with dose := .value 2500 }]
        let t := s.releaseBoth judgeFirst
        s.bothWait = true ∧ t.map.features = [] ∧ t.dose.queue = [] ∧ t.dose.lastRejected = 87 ∧
          t.link.handoffFifo.map (fun f => f.payload) =
            if judgeFirst then [.handoffPanel 87 215 1 6] else [.handoffPanel 87 215 1 0, .handoffReject 87 6]) := by decide +kernel

/-- An insertion's lookup releases the exit held at the blade; a missing pattern in LEAD_IN plays nothing and is in TAIL (R77, R138, R139). -/
theorem test_witness_sequencer_releases :
    (let s (found : Option Pattern) : State :=
       serving (State.holding (State.at_ blade 5040000) [{ waitingPanel with reached := true }]) .insertion 311 found
     (waitingPanel.panel?.map fun p => (p.outLen, p.nominal)) = some (.pending, some 100000) ∧
       (let t := after .sequencerLookupComplete (s (some pattern215))
        t.map.features = [] ∧ t.link.handoffFifo.map (fun f => f.payload) = [.handoffPanel 311 215 87040 0]) ∧
       (after .sequencerLookupComplete (s none)).link.handoffFifo.map (fun f => f.payload) = [.handoffPanel 311 215 100000 0]) ∧
      (let s : State := { blade with seq := { blade.seq with state := .leadIn, current := some (Context.outstanding 310 215 5000000 (some 100000)) } }
       let t := after .sequencerLookupComplete (serving s .lateCopy 310 none)
       t.seq.state = .tail ∧ (t.seq.play.bind fun p => p.strike) = none ∧ (t.seq.current.map fun c => (c.outLen, c.delivered)) = some (some 100000, true) ∧
         t.events = s.events.set .patternMissing) := by decide +kernel

/-- The port after a lookup: an operation that waited begins, an erase of 45 ms; a suspended program resumes; the next Sequencer lookup is
served before the Web Map's, which takes 10 µs (R108 to R114). -/
theorem test_witness_port_goes_on :
    (let done (st : Store) : Store := (after .webMapLookupComplete (serving { station with store := st } .webMap 87 none)).store
     let a : Lookup := { requester := .insertion, panel := 1, id := 215 }
     let b : Lookup := { requester := .webMap, panel := 2, id := 215 }
     let st := (stored station).store
     (let t := done { st with ops := [.erase 9] }
      t.phase = some .writing ∧ t.opTime = 45000 ∧ (t.record 9).state = .erasing) ∧
       (done { st with ops := [.erase 9], seqWaiting := [a] }).phase = some .suspending ∧
       (done { programming.store with phase := some .suspended }).phase = some .resuming ∧
       (done { st with seqWaiting := [a], mapWaiting := [b] }).serving.map (fun v => (v.lookup.panel, v.time)) = some (1, 20) ∧
       (done { st with mapWaiting := [b] }).serving.map (fun v => (v.lookup.panel, v.time)) = some (2, 10) ∧
       (done st).serving = none) := by decide +kernel

/-! ### The clauses on ceilings, on what waits or ends at the blade, and on what a completion begins -/

/-- A C_min of 3,600 at s 65,536 and T_STROKE 20 gives 180,000; a zone from 10,000 to 50,000 in band and a greatest dose of 2,900 give
13,793; SPLICE_SPEED is 40,000; without a job there is none (R129, R179 to R181, R197). -/
theorem test_witness_ceilings :
    (let s : State := { blade with seq := { blade.seq with current := some { copied 310 0 with cMin := some 3600 } } }
     s.pleatCeiling = some 180000 ∧ s.jobCeilings = [180000] ∧
       ({ s with seq := { s.seq with current := some { copied 310 0 with cMin := none } } } : State).pleatCeiling = none) ∧
      (let s : State := { queued steamer [segment 0 (some 2900) 0, segment 5 none 0] with
                          steam := { steamer.steam with zones := [{ freshZone zoneA with inBand := true }] } }
       s.inBandLength = 40000 ∧ s.doseMax = 2900 ∧ s.steamCeiling = some 13793 ∧
         (let u := State.holding s [(panelAt 7 0).mapPanel fun p => { p with dose := .value 3000 }, panelAt 8 1]
          u.entryPanel = (panelAt 7 0).panel?.map (fun p => { p with dose := .value 3000 }) ∧ u.doseMax = 3000) ∧
         (queued steamer [segment 0 (some 2900) 0]).steamCeiling = some 0 ∧ steamer.steamCeiling = none) ∧
      (spliced .armed).spliceCeiling = some 40000 ∧ (spliced .idle).spliceCeiling = none ∧ running.jobCeilings = [] := by decide +kernel

/-- The context of panel 311 while its insertion's lookup is outstanding. -/
def outstanding311 : Context := Context.outstanding 311 215 5000000 (some 100000)

/-- An OUTSTANDING panel at the blade waits there: in LEAD_IN, its predecessor TRUNCATED, on its record where that waits too; in RUNOUT under a clear
position, its own record SPLICED; and a SPLICE behind it waits with it (R77, R132, R138, R140, R141, R150). -/
theorem test_witness_waits_at_blade :
    (let s (st : SeqState) : State := atBlade waitingPanel st (some outstanding311)
     waitingPanel.hasPending = true ∧ outstanding311.delivered = false ∧
       (let t := after .featureAtExit (s .idle)
        t.seq.state = .leadIn ∧ t.seq.current = some outstanding311 ∧ t.map.features = [{ waitingPanel with reached := true }] ∧
          t.link = (s .idle).link) ∧
       (let t := after .featureAtExit (s .folding)
        t.seq.state = .leadIn ∧ t.seq.play = none ∧ t.link.handoffFifo.map (fun f => f.payload) = [.handoffReject 310 4]) ∧
       (let w := { bladePanel 310 4900000 with reached := true }
        let w := w.mapPanel fun p => { p with dose := .pending }
        let t := after .featureAtExit (State.holding (s .folding) [w, waitingPanel])
        (t.panel? 310).map (fun p => p.cause) = some (some .truncated) ∧ t.link.handoffFifo = []) ∧
       (let t := after .featureAtExit { s .runout with seq := { (s .runout).seq with clearPos := some 5041000 } }
        t.seq.state = .runout ∧ (t.panel? 311).map (fun p => p.cause) = some (some .spliced) ∧ t.link.handoffFifo = [])) ∧
      (let s (st : SeqState) : State := State.holding (atBlade waitingPanel st none) [{ waitingPanel with reached := true }, spliceAt 12 5000000]
       (∀ first : Bool,
        let t := (s .tail).markReached.spliceExit first (spliceAt 12 5000000)
        t.map.features.map (fun f => f.reached) = [true, true] ∧ t.seq.clearPos = some 5043000 ∧ t.seq.state = .runout ∧
          t.link.handoffFifo.map (fun f => f.payload) = [.handoffReject 310 2]) ∧
       (after .featureAtExit (s .idle)).seq.state = .idle) := by decide +kernel

/-- What is next after 311 has reached the blade: nothing; a FLAT context; the insertion's lookup of 312 still to come; a late copy of 312 (R135, R138). -/
theorem test_witness_settles_next :
    let s (behind : List Feature) : State :=
      State.holding (atBlade (bladePanel 311 5000000) .idle (some (copied 311 5000000))) (bladePanel 311 5000000 :: behind)
    let l : Lookup := { requester := .insertion, panel := 312, id := 215 }
    let busy (s : State) : State := { s with store := { s.store with phase := some .resuming, seqWaiting := [l] } }
    let next (s : State) : Option (Nat × Bool) := (after .featureAtExit s).seq.next.map fun c => (c.panel, c.delivered)
    next (s []) = none ∧ next (s [spliceAt 3 5000500]) = none ∧
      next (s [(bladePanel 312 5001000).mapPanel fun p => { p with pattern := 0 }]) = some (312, true) ∧
      (busy (s [bladePanel 312 5001000])).store.seqWaiting = [l] ∧
      next (busy (s [spliceAt 3 5000500, bladePanel 312 5001000])) = some (312, false) ∧
      (after .featureAtExit (busy (s [bladePanel 312 5001000]))).store.seqWaiting = [l] ∧
      next (s [bladePanel 312 5001000]) = some (312, false) ∧
      (after .featureAtExit (s [bladePanel 312 5001000])).store.serving.map (fun v => v.lookup) =
        some { requester := .lateCopy, panel := 312, id := 215 } := by decide +kernel

/-- Station 4 with the blade and the reject gate: 311 leaves without a HANDOFF, and the gate follows its cause; the truncated 310 and a spliced
one latch LATE_REJECT, and nothing is sent (R82, R86, R140, R150). -/
theorem test_witness_last_blade_station :
    let s (f : Feature) (st : SeqState) : State :=
      let s := atBlade f st (some (copied 311 5000000))
      { s with boot := lastStation.boot, cfg := { s.cfg with rejectGate := true } }
    let bad : Feature := (bladePanel 311 5000000).mapPanel fun p => { p with cause := some .halted }
    (s bad .tail).isLast = true ∧
      (let t := after .featureAtExit (s bad .tail)
       t.map.features = [] ∧ t.map.gateOpen = true ∧ t.seq.state = .folding ∧ t.events = (s bad .tail).events) ∧
      (let t := after .featureAtExit (s (bladePanel 311 5000000) .folding)
       t.map.gateOpen = false ∧ t.events.has .lateReject = true ∧ t.link.handoffFifo = []) ∧
      (let s := s (bladePanel 311 5000000) .runout
       (after .featureAtExit { s with seq := { s.seq with clearPos := some 5041000 } }).events.has .lateReject = true) ∧
      (∀ first : Bool,
       let t := (s (spliceAt 12 5000000) .tail).markReached.spliceExit first (spliceAt 12 5000000)
       t.seq.state = .runout ∧ t.seq.clearPos = some 5043000 ∧ t.events.has .lateReject = true ∧ t.map.features = []) ∧
      (after .featureAtExit (s (spliceAt 12 5000000) .idle)).events = (s bad .idle).events := by decide +kernel

/-- A full FIFO: 311 stays OVERDUE and the line halts; 310 is TRUNCATED, too late for a notice, or on its own OVERDUE record, and HALTED there when the
line is at speed 0 or in STANDBY; a SPLICE behind an OVERDUE feature sets the clear position (R80, R86, R140, R150, R152). -/
theorem test_witness_backlogs_at_blade :
    let full (s : State) : State := { s with link := { s.link with handoffFifo := List.replicate 8 frameA } }
    let s (st : SeqState) : State := full (atBlade (bladePanel 311 5000000) st (some (copied 311 5000000)))
    let behind (f : Feature) (s : State) : State := State.holding s [{ bladePanel 310 4900000 with reached := true, overdue := true }, f]
    let cause (t : State) : Option (Option RejectCause) := (t.panel? 310).map fun p => p.cause
    (let t := after .featureAtExit (s .tail)
     t.events.has .handoffBacklog = true ∧ t.line.state = .halting ∧ t.map.features = [{ bladePanel 311 5000000 with reached := true, overdue := true }] ∧
       t.seq.state = .folding ∧ (t.seq.current.map fun c => c.panel) = some 311) ∧
      (after .featureAtExit (s .folding)).events.has .lateReject = true ∧
      cause (after .featureAtExit (behind (bladePanel 311 5000000) (s .folding))) = some (some .truncated) ∧
      (let t := after .featureAtExit (State.inLine (behind (bladePanel 311 5000000) (s .folding)) .run 0)
       t.line.state = .held ∧ cause t = some (some .halted) ∧ (State.inLine (s .folding) .run 0).haltIsHeld) ∧
      (let t := after .featureAtExit (State.inLine (behind (bladePanel 311 5000000) (s .leadIn)) .standby 0)
       t.line.state = .held ∧ cause t = some (some .halted)) ∧
      (∀ first : Bool,
       let t := (behind (spliceAt 12 5000000) (s .leadIn)).markReached.spliceExit first (spliceAt 12 5000000)
       t.map.features.map (fun f => f.overdue) = [true, true] ∧ t.seq.clearPos = some 5043000 ∧ t.seq.state = .runout ∧
         cause t = some (some .spliced)) ∧
      (after .featureAtExit (behind (spliceAt 12 5000000) (s .idle))).seq.state = .idle := by decide +kernel

/-- Panel 311 held at the blade in LEAD_IN, a SPLICE behind it, and the copy of its insertion delivered. -/
def heldAtBlade (found : Option Pattern) : State :=
  let s := atBlade waitingPanel .leadIn none
  serving
    { State.holding s [{ waitingPanel with reached := true }, { spliceAt 12 5000000 with reached := true }] with
      seq := { s.seq with current := some outstanding311, play := none } }
    .insertion 311 found

/-- One delivery starts the play and takes the held exit: with room, at the last station, and without room, where the line that halts at
speed 0 enters HELD and ends the play, HALTED on the record, but not a panel in TAIL (R77, R80, R82, R134, R139, R152, log 45). -/
theorem test_witness_delivery_at_blade :
    (let t := after .sequencerLookupComplete (heldAtBlade (some pattern215))
     t.seq.state = .folding ∧ (t.seq.play.bind fun p => p.strike).map (fun k => k.pos) = some 5044334 ∧ t.map.features = [] ∧
       t.link.handoffFifo.map (fun f => f.payload) = [.handoffPanel 311 215 87040 0, .handoffSplice 12]) ∧
      (let s := heldAtBlade (some pattern215)
       let t := after .sequencerLookupComplete { s with boot := lastStation.boot }
       t.map.features = [] ∧ t.link = s.link ∧ t.seq.state = .folding) ∧
      (let s (found : Option Pattern) : State :=
         { heldAtBlade found with link := { (heldAtBlade found).link with handoffFifo := List.replicate 8 frameA } }
       let cause (t : State) : Option (Option RejectCause) := (t.panel? 311).map fun p => p.cause
       (let t := after .sequencerLookupComplete (s (some pattern215))
        t.events.has .handoffBacklog = true ∧ t.line.state = .halting ∧ t.seq.state = .folding ∧
          t.map.features.map (fun f => f.overdue) = [true, true] ∧ cause t = some none) ∧
       (let t := after .sequencerLookupComplete (State.inLine (s (some pattern215)) .run 0)
        t.line.state = .held ∧ t.seq.state = .runout ∧ t.seq.play = none ∧ cause t = some (some .halted)) ∧
       (let t := after .sequencerLookupComplete (State.inLine (s none) .run 0)
        t.line.state = .held ∧ t.seq.state = .tail ∧ cause t = some none)) := by decide +kernel

/-- The insertion's copy for a panel that is neither next nor current fills its record alone; the late copy of the next panel is its context
alone, and leaves its record (R134, R135). -/
theorem test_witness_dropped_and_late_copies :
    let first : Feature := { waitingPanel with body := .panel { number := 311, pattern := 215, nominal := some 100000, outLen := .value 9, dose := .absent, cause := none, planDrawn := false } }
    let second : Feature := waitingPanel.mapPanel fun p => { p with number := 312 }
    let s : State := State.holding blade [first, second]
    (let t := after .sequencerLookupComplete (serving s .insertion 312 (some pattern215))
     (t.panel? 312).map (fun p => p.outLen) = some (.value 87040) ∧ t.seq = s.seq ∧ (t.panel? 311) = first.panel?) ∧
      (let t := after .sequencerLookupComplete (serving s .lateCopy 311 (some pattern215))
       t.map = s.map ∧ (t.seq.next.map fun c => (c.panel, c.outLen, c.delivered)) = some (311, some 87040, true)) := by decide +kernel

/-- Of two complete copies of version 57 the lower-numbered slot stays; a stored counter above both stays at 60 (R118). -/
theorem test_witness_scan_ties :
    let copy (version : Nat) : Option NvRecord :=
      some { pattern := pattern215, version := version, marker := true, checkGood := true, retired := false }
    let s : State := { scanning with store := { (scanning.store.setCell 3 (copy 57)).setCell 9 (copy 57) with counter := some 60 } }
    let t := after .scanReadComplete s
    (t.store.record 3).state = .valid ∧ t.boot.scanMarks = [9] ∧ t.store.counter = some 60 ∧
      (after .scanReadComplete { s with store := { s.store with counter := none } }).store.counter = some 57 := by decide +kernel

/-- A completion begins the operation queued behind it: the retired copy's erase waits behind the program of slot 5, which begins, and an
erase's end begins the next erase (R108 to R110). -/
theorem test_witness_next_operation :
    let p : Pattern := { pattern215 with id := 216 }
    let queue (ops : List NvOp) : State := { programming with store := { programming.store with ops := ops } }
    (let t := after .nvProgramComplete (queue [.program 3 pattern215, .program 5 p])
     t.store.ops = [.program 5 p, .erase 9] ∧ t.store.phase = some .writing ∧ t.store.opTime = 21250 ∧
       (t.store.cell 5).map (fun r => (r.pattern.id, r.marker)) = some (216, false) ∧ (t.store.record 9).state = .retired) ∧
      (let t := after .nvEraseComplete (queue [.erase 3, .erase 9])
       t.store.ops = [.erase 9] ∧ t.store.phase = some .writing ∧ t.store.opTime = 45000 ∧ (t.store.record 9).state = .erasing ∧
         t.store.record 3 = SlotRecord.cleared) := by decide +kernel

/-- With P_dist 0 SPLICE 4 is at the entry when it is inserted: the last created panel 42 takes SPLICED on its record, or by a notice when it
has left; a new roll that ran out in CUTTING leaves both records EMPTY (R92, R195). -/
theorem test_witness_match_at_entry :
    (let plan : PlanQueue := { PlanQueue.reset with lastCreated := some { number := 42, pattern := 12, planDrawn := false, inserted := true, cause := none } }
     let s (fs : List Feature) : State :=
       State.holding { spliced .matching with plan := plan, cfg := { (spliced .matching).cfg with pDist := 0 } } fs
     (let t := after .matchTimerExpiry (s [])
      t.splice.state = .pasting ∧ t.map.features = [{ spliceAt 4 0 with body := .splice 4 true }] ∧
        t.link.handoffFifo.map (fun f => f.payload) = [.handoffReject 42 2] ∧ t.tracker.guard = some 0) ∧
      (let t := after .matchTimerExpiry (s [panelAt 42 0])
       (t.panel? 42).map (fun p => p.cause) = some (some .spliced) ∧ t.link.handoffFifo = [])) ∧
      (let s : State := { spliced .cutting with splice := { (spliced .cutting).splice with rollA := { state := .expiring, id := some 1, remaining := some 3 }, rollB := Roll.none } }
       let t := after .cutStrobeEnd s
       t.splice.state = .idle ∧ t.splice.rollA = Roll.none ∧ t.splice.rollB = Roll.none ∧ t.splice.vNew = 0) := by decide +kernel

/-- An overrun and a missed fold whose panel the list still holds, at the last station, and without room in the FIFO (R86, R137, R148, R149). -/
theorem test_witness_given_up :
    let p : Play := Play.setUp 5040000 (some pattern215) 66060
    let s (base : State) : State :=
      State.at_ { base with cfg := blade.cfg, seq := { blade.seq with state := .folding, current := some (copied 310 5000000), play := some p
                                                                      strokeTimer := some 1, bladeStrobe := true } } 5044334
    let held : State := State.holding (s running) [{ bladePanel 310 5000000 with reached := true, overdue := true }]
    let full : State := { s running with link := { running.link with handoffFifo := List.replicate 8 frameA } }
    (let t := after .strikePositionReached held
     t.seq.state = .runout ∧ t.events.has .strokeOverrun = true ∧ (t.panel? 310).map (fun p => p.cause) = some (some .overrun) ∧
       t.link = held.link ∧ ((after .strikePositionReached (State.inLine held .halting 9)).panel? 310).map (fun p => p.cause) =
         some (some .halted)) ∧
      (let t := after .strikePositionReached (s lastStation)
       t.events = (lastStation.events.set .strokeOverrun).set .lateReject ∧ t.link = lastStation.link ∧ t.seq.state = .runout) ∧
      (let t := after .strikePositionReached (State.inLine full .stopping 9)
       t.events = full.events.set .lateReject ∧ t.link = full.link ∧ t.seq.state = .runout) := by decide +kernel

/-- The own slot of each class with nothing ready starts nothing (R3). -/
theorem test_witness_empty_slots :
    ((List.range 4).all fun c =>
      decide ((after (.slotOpening (16 * c + 3)) (listening station 0)).link.line = .contention (16 * c + 4))) = true := by decide +kernel

/-! ### What every step keeps -/

/-- Premises of the invariants: an origin in MATCHING with a command waiting, which the step answers with a next state. -/
def busyOrigin : State := { spliced .matching with pending := [.matchTimerExpiry] }
theorem test_witness_invariants :
    busyOrigin.withinCapacity ∧ busyOrigin.withinRanges ∧ busyOrigin.numbersUnique ∧ busyOrigin.speedLimited ∧ busyOrigin.splice.sound ∧
      busyOrigin.listInOrder := by
  decide +kernel
theorem test_witness_invariants_below : steamer.zonesSound ∧ steamer.dosesSound ∧ blade.seq.sound := by decide +kernel
/-- Two features in order and a mark, near the web position. -/
theorem test_witness_near :
    let s := State.holding { running with tracker := { running.tracker with marks := [20], position := 70 } } [panelAt 7 0, spliceAt 3 70]
    s.near ∧ s.listInOrder := by
  refine ⟨⟨by decide +kernel, fun p h => ?_, fun h hh => ?_, by decide⟩, by decide +kernel⟩
  · rw [List.mem_singleton.1 h]; decide +kernel
  · exact absurd hh List.not_mem_nil
theorem test_witness_step_answers : ∃ t, step busyOrigin = .next t := ⟨_, rfl⟩
theorem test_witness_one_copy : (stored station).store.oneCopy := by decide +kernel
/-- A sound store: slot 9 VALID with pattern 215, no operation waiting. -/
theorem test_witness_store_sound : (stored station).storeSound := by
  have cell : ∀ i : Fin 32, (stored station).store.cell i = if i = 9 then copyOf pattern215 40 else none := by decide +kernel
  have record : ∀ i : Fin 32, (stored station).store.record i = if i = 9 then slot .valid 215 40 else SlotRecord.cleared := by decide +kernel
  refine ⟨fun h => absurd rfl h, by decide +kernel, fun _ h => absurd h List.not_mem_nil, fun h => absurd rfl h, ?_, ?_, ?_⟩
  · intro i h
    rw [record] at h
    rw [cell, record]
    split at h <;> simp_all [copyOf, slot, NvRecord.complete, SlotRecord.cleared, pattern215]
  · intro i r h _
    rw [cell] at h
    split at h
    · simp only [copyOf, Option.some.injEq] at h
      subst h
      exact test_pattern_215.imp_right fun h => h.2
    · cases h
  · intro i j id hi hj
    simp only [State.holdsProtected, record] at hi hj
    split at hi <;> split at hj <;> simp_all [SlotRecord.cleared]
/-- A remainder of 0, as `RemaindersKeepTheScaledSum` takes it: 1,500 and 2,800 at s 66,060 (Strikes of Pattern 215). -/
theorem test_witness_remainder :
    let p : Play := { pointer := 0, rep := none, stack := [], lastClosed := none, position := 5040000, remainder := 0, computed := 0, strike := none }
    p.remainder = 0 ∧ ((p.addLength 66060 1500).addLength 66060 2800).position = 5044334 ∧
      ((p.addLength 66060 1500).addLength 66060 2800).remainder = 24976 := by decide

end Sys2Proof.Tests
end

section
/-! SUPPORT. What the speed conversions, the ceilings and the target are (R42 to R44), and the statements on them. -/

namespace Sys2Proof.Machine

/-! ### The smallest of a list -/

/-- Folding `min` from `a` over `l` answers the minimum of `a :: l`: one of its entries, and none lies below it. -/
theorem foldl_min_mem_and_le (a : Nat) (l : List Nat) :
    l.foldl min a ∈ a :: l ∧ ∀ b ∈ a :: l, l.foldl min a ≤ b :=
  List.min?_eq_some_iff.1 List.min?_cons'

/-! ### The Peer Table read as a whole (R31, R35) -/

@[simp] theorem mem_allIndices (i : BitVec 4) : i ∈ allIndices := by
  revert i
  decide

theorem LineControl.isFresh_iff (l : LineControl) (i : BitVec 4) :
    l.isFresh i = true ↔ (l.peer i).member = true ∧ (l.peer i).state = .fresh := by
  simp [LineControl.isFresh]

theorem LineControl.isMissing_iff (l : LineControl) (i : BitVec 4) :
    l.isMissing i = true ↔ (l.peer i).member = true ∧ ((l.peer i).state = .absent ∨ (l.peer i).state = .stale) := by
  simp [LineControl.isMissing]

theorem LineControl.allHeard_eq_true_iff (l : LineControl) : l.allHeard = true ↔ ∀ i, ¬ l.isMissing i = true := by
  simp [LineControl.allHeard]

/-- A member that is FRESH or RELEASED is not missing. -/
theorem LineControl.not_isMissing_of_heard {l : LineControl} {i : BitVec 4}
    (heard : (l.peer i).member = true → (l.peer i).state = .fresh ∨ (l.peer i).state = .released) : ¬ l.isMissing i = true := by
  intro missing
  obtain ⟨member, silent⟩ := (l.isMissing_iff i).1 missing
  rcases heard member with h | h <;> simp [h] at silent

/-! ### The own ceiling and the target by line state (R43, R44) -/

theorem State.ownCeiling_of_run {s : State} (run : s.line.state = .run) :
    s.ownCeiling = (s.jobCeilings.map s.toReference).foldl min s.cfg.maxSpeed := by
  simp only [State.ownCeiling, run]

theorem State.ownCeiling_of_not_run {s : State} (h : s.line.state ≠ .run) : s.ownCeiling = 0 := by
  unfold State.ownCeiling
  split
  · exact absurd ‹_› h
  all_goals rfl

theorem State.target_of_not_run {s : State} (h : s.line.state ≠ .run) : s.target = 0 := by
  unfold State.target
  split
  · exact absurd ‹_› h
  all_goals rfl

theorem State.target_of_run_missing {s : State} {i : BitVec 4} (run : s.line.state = .run) (missing : s.line.isMissing i = true) :
    s.target = 0 := by
  have notHeard : ¬ s.line.allHeard = true := fun all => (s.line.allHeard_eq_true_iff.1 all) i missing
  simp only [State.target, run, if_neg notHeard]

theorem State.target_of_run_heard {s : State} (run : s.line.state = .run) (heard : s.line.allHeard = true) :
    s.target = s.peerCeilings.foldl min (min s.line.setpoint s.ownCeiling) := by
  simp only [State.target, run, if_pos heard]

/-- In RUN the own ceiling is the smallest of MAX_SPEED and the job ceilings in reference (R43). -/
theorem State.ownCeiling_isSmallest {s : State} (run : s.line.state = .run) :
    s.ownCeiling ≤ s.cfg.maxSpeed ∧ (∀ c ∈ s.jobCeilings, s.ownCeiling ≤ s.toReference c) ∧
      (s.ownCeiling = s.cfg.maxSpeed ∨ ∃ c ∈ s.jobCeilings, s.ownCeiling = s.toReference c) := by
  obtain ⟨mem, le⟩ := foldl_min_mem_and_le s.cfg.maxSpeed (s.jobCeilings.map s.toReference)
  rw [← State.ownCeiling_of_run run] at mem le
  refine ⟨le _ List.mem_cons_self, fun c hc => le _ (List.mem_cons_of_mem _ (List.mem_map_of_mem hc)), ?_⟩
  rcases List.mem_cons.1 mem with own | job
  · exact .inl own
  · obtain ⟨c, hc, eq⟩ := List.mem_map.1 job
    exact .inr ⟨c, hc, eq.symm⟩

/-- The ceilings that bound the target: those announced by the FRESH members other than the station (R44). -/
theorem State.mem_peerCeilings (s : State) (c : Nat) :
    c ∈ s.peerCeilings ↔ ∃ i : BitVec 4, i ≠ s.boot.index ∧ (s.line.peer i).member = true ∧ (s.line.peer i).state = .fresh ∧
      (s.line.peer i).ceiling = some c := by
  simp [State.peerCeilings, LineControl.isFresh_iff, and_assoc]

/-- With every member heard in RUN, the target is the smallest of the setpoint, the own ceiling and the peers' ceilings (R44). -/
theorem State.target_isSmallest {s : State} (run : s.line.state = .run) (heard : s.line.allHeard = true) :
    s.target ≤ s.line.setpoint ∧ s.target ≤ s.ownCeiling ∧ (∀ c ∈ s.peerCeilings, s.target ≤ c) ∧
      (s.target = s.line.setpoint ∨ s.target = s.ownCeiling ∨ s.target ∈ s.peerCeilings) := by
  obtain ⟨mem, le⟩ := foldl_min_mem_and_le (min s.line.setpoint s.ownCeiling) s.peerCeilings
  rw [← State.target_of_run_heard run heard] at mem le
  have own : s.target ≤ min s.line.setpoint s.ownCeiling := le _ List.mem_cons_self
  refine ⟨own.trans (min_le_left _ _), own.trans (min_le_right _ _), fun c hc => le c (List.mem_cons_of_mem _ hc), ?_⟩
  rcases List.mem_cons.1 mem with first | peer
  · exact (min_choice s.line.setpoint s.ownCeiling).imp first.trans fun eq => .inl (first.trans eq)
  · exact .inr (.inr peer)

/-- Settles O24: outside RUN both are 0 by their definition, a missing member makes the target 0, and the rest says that a fold of
`min` answers the smallest entry. -/
theorem targetIsTheSmallestLimit : Obligations.TargetIsTheSmallestLimit := by
  intro s
  refine ⟨fun h => ⟨State.target_of_not_run h, State.ownCeiling_of_not_run h⟩,
    fun run => ⟨?missing, ?heard, State.ownCeiling_isSmallest run⟩⟩
  case missing =>
    rintro ⟨i, missing⟩
    exact State.target_of_run_missing run ((s.line.isMissing_iff i).2 missing)
  case heard =>
    intro heard
    have allHeard : s.line.allHeard = true :=
      s.line.allHeard_eq_true_iff.2 fun i => LineControl.not_isMissing_of_heard (heard i)
    obtain ⟨setpoint, own, peers, attained⟩ := State.target_isSmallest run allHeard
    refine ⟨setpoint, own, fun i c other member fresh ceiling => ?_, ?_⟩
    · exact peers c ((s.mem_peerCeilings c).2 ⟨i, other, member, fresh, ceiling⟩)
    · rwa [State.mem_peerCeilings] at attained

/-! ### Reference and local speed (R42) -/

theorem State.toReference_mul_qIn_le (s : State) (v : Nat) : s.toReference v * s.line.qIn ≤ v * 65536 :=
  calc s.toReference v * s.line.qIn
    _ ≤ v * 65536 / s.line.qIn * s.line.qIn := Nat.mul_le_mul_right _ (min_le_left _ _)
    _ ≤ v * 65536 := Nat.div_mul_le_self _ _

/-- A local ceiling taken to reference and back never comes out above itself: both floors and the clamp only lower it (R42). -/
theorem State.toLocal_toReference_le (s : State) (v : Nat) : s.toLocal (s.toReference v) ≤ v :=
  Nat.div_le_of_le_mul (by simpa only [Nat.mul_comm 65536] using s.toReference_mul_qIn_le v)

/-- At a ratio of one a speed is the same in both (R42). -/
theorem State.conversions_of_qIn_one {s : State} (one : s.line.qIn = 65536) (v : Nat) :
    s.toLocal v = v ∧ s.toReference v = min v s.cfg.maxSpeed := by
  simp [State.toLocal, State.toReference, one]

/-- Settles O26: the bounds of a floor, and the chain of the two conversions. -/
theorem speedConversionsNeverExceedTheCeiling : Obligations.SpeedConversionsNeverExceedTheCeiling := by
  intro s v _
  refine ⟨?lower, ?upper, rfl, fun one => State.conversions_of_qIn_one one v, s.toLocal_toReference_le v⟩
  case lower => exact Nat.div_mul_le_self (v * s.line.qIn) 65536
  case upper => exact Nat.lt_mul_of_div_lt (Nat.lt_succ_self _) (by decide)

end Sys2Proof.Machine
end

section
/-! SUPPORT. What the frames of the Pattern Store do (R99 to R107): a frame heard reaches its owner, the buffer opens and fills, a close is
judged by its chain of checks, and a slot's program or erase joins the operation FIFO. -/

namespace Sys2Proof.Machine

/-! ### A frame heard -/

/-- A frame heard ends the reception and reaches its owner (R10, R12): its sender is another station. -/
theorem State.receive_of_hears {s t : State} {bytes : List Byte} {f : RxFrame} {owner : RxFrame → Option (State → State)}
    (h : s.hears bytes f) (taken : (owner f).map (fun act => act s.heard) = some t) : s.receive bytes owner = t := by
  obtain ⟨receiving, accepted, routed⟩ := h
  obtain ⟨act, owned, rfl⟩ := Option.map_eq_some_iff.1 taken
  have other : f.sender ≠ s.boot.index := by simp_all [State.routes]
  simp [State.receive, State.heard, receiving, accepted, routed, owned, other]

section
variable {s : State} {bytes : List Byte} {sender : BitVec 4} {targets pattern : BitVec 16}

theorem exec_patOpen_of_hears {nominal leadIn : BitVec 24} {dose : BitVec 16} {count : Byte}
    (h : s.hears bytes ⟨sender, .patOpen targets pattern nominal leadIn dose count⟩) :
    exec (.patOpen bytes) s =
      .next (s.heard.takePatOpen pattern.toNat nominal.toNat leadIn.toNat dose.toNat count.toNat) :=
  congrArg Host.Outcome.next (State.receive_of_hears h rfl)

theorem exec_patStep_of_hears {sequence : Byte} {entries : List RawEntry}
    (h : s.hears bytes ⟨sender, .patStep targets sequence entries⟩) :
    exec (.patStep bytes) s = .next (s.heard.takePatStep sequence.toNat entries) :=
  congrArg Host.Outcome.next (State.receive_of_hears h rfl)

theorem exec_patClose_of_hears {count : Byte} (h : s.hears bytes ⟨sender, .patClose targets pattern count⟩) :
    exec (.patClose bytes) s = .next (s.heard.takePatClose pattern.toNat count.toNat) :=
  congrArg Host.Outcome.next (State.receive_of_hears h rfl)

theorem exec_patErase_of_hears (h : s.hears bytes ⟨sender, .patErase targets pattern⟩) :
    exec (.patErase bytes) s = .next (s.heard.takePatErase pattern.toNat) :=
  congrArg Host.Outcome.next (State.receive_of_hears h rfl)

end

/-! ### Clamps (R100) -/

theorem clamp_eq_max_min {a b : Nat} (le : a ≤ b) (v : Nat) : clamp a b v = max a (min b v) := by
  unfold clamp
  split
  · omega
  · split <;> omega

theorem clampInt_eq_max_min {a b : Int} (le : a ≤ b) (v : Int) : clampInt a b v = max a (min b v) := by
  unfold clampInt
  split
  · omega
  · split <;> omega

/-- A header is clamped lead-in last, to the clamped nominal length (R100). -/
theorem openedBuffer_eq (pattern nominal leadIn dose count : Nat) :
    openedBuffer pattern nominal leadIn dose count =
      { id := pattern
        nominal := max 20000 (min 800000 nominal)
        leadIn := min (max 20000 (min 800000 nominal)) leadIn
        dose := min 60000 dose
        announced := count
        nextSeq := 0
        entries := [] } := by
  simp [openedBuffer, clamp_eq_max_min]

/-- A count byte cannot exceed the upper end of its clamp. -/
theorem clamp_byte (n : Byte) : clamp 1 255 n.toNat = max 1 n.toNat := by
  rw [clamp_eq_max_min (by decide), min_eq_right (by omega)]

theorem clampEntry_fold (hand : Hand) (face depth : BitVec 16) (rep : Byte) (gradeFace gradeDepth : BitVec 16) :
    clampEntry (.fold hand face depth rep gradeFace gradeDepth) =
      .fold hand (max 200 (min 8000 face.toNat)) (max 100 (min 4000 depth.toNat)) (max 1 rep.toNat)
        (max (-500) (min 500 gradeFace.toInt)) (max (-500) (min 500 gradeDepth.toInt)) := by
  simp [clampEntry, ← clamp_byte, clamp_eq_max_min, clampInt_eq_max_min]

theorem clampEntry_flat (length : BitVec 24) : clampEntry (.flat length) = .flat (max 1 (min 100000 length.toNat)) := by
  simp [clampEntry, clamp_eq_max_min]

theorem clampEntry_group (n : Byte) : clampEntry (.group n) = .group (max 1 n.toNat) := by
  simp [clampEntry, clamp_byte]

/-! ### Opening and filling the buffer (R99, R101) -/

theorem State.takePatOpen_refused {s : State} {pattern count : Nat} (nominal leadIn dose : Nat)
    (out : pattern = 0 ∨ 4095 < pattern ∨ count = 0 ∨ 96 < count) :
    s.takePatOpen pattern nominal leadIn dose count = s.refuse .patOpen .outOfRange :=
  if_pos out

/-- A PAT_OPEN in range opens the buffer; one that was OPEN is given up with LOAD_FAILED (R99). -/
theorem State.takePatOpen_opens {s : State} {pattern count : Nat} (nominal leadIn dose : Nat)
    (inRange : ¬ (pattern = 0 ∨ 4095 < pattern ∨ count = 0 ∨ 96 < count)) :
    s.takePatOpen pattern nominal leadIn dose count =
      { s with
        store := { s.store with buffer := some (openedBuffer pattern nominal leadIn dose count) }
        events := if s.store.buffer = none then s.events else s.events.set .loadFailed } := by
  rw [State.takePatOpen, if_neg inRange]
  cases buffer : s.store.buffer <;> rfl

theorem State.takePatStep_closed {s : State} (closed : s.store.buffer = none) (sequence : Nat) (entries : List RawEntry) :
    s.takePatStep sequence entries = s.flag .loadFailed := by
  simp only [State.takePatStep, closed]

theorem State.takePatStep_fails {s : State} {b : Buffer} {sequence : Nat} {entries : List RawEntry}
    (isOpen : s.store.buffer = some b)
    (bad : sequence ≠ b.nextSeq ∨ b.announced < b.entries.length + entries.length) :
    s.takePatStep sequence entries = s.failLoad := by
  simp only [State.takePatStep, isOpen]
  rcases bad with sequenceBad | noRoom
  · rw [if_pos sequenceBad]
  · rw [if_pos noRoom, ite_self]

theorem State.takePatStep_joins {s : State} {b : Buffer} {sequence : Nat} {entries : List RawEntry}
    (isOpen : s.store.buffer = some b) (next : sequence = b.nextSeq)
    (room : b.entries.length + entries.length ≤ b.announced) :
    s.takePatStep sequence entries =
      { s with
        store :=
          { s.store with buffer := some { b with nextSeq := b.nextSeq + 1, entries := b.entries ++ entries.map clampEntry } } } := by
  simp only [State.takePatStep, isOpen]
  rw [if_neg (not_not_intro next), if_neg (by omega)]

/-- Settles O44: a frame heard is its owner's part, and each of the owner's branches is one clause. -/
theorem patternFramesFillTheBuffer : Obligations.PatternFramesFillTheBuffer := by
  intro s bytes sender targets
  constructor
  case left =>
    intro pattern nominal leadIn dose count heard
    rw [exec_patOpen_of_hears heard]
    have zero : pattern = 0 ↔ pattern.toNat = 0 := BitVec.toNat_inj.symm
    have noEntries : count = 0 ↔ count.toNat = 0 := BitVec.toNat_inj.symm
    refine ⟨fun out => ?refused, fun pos small one few => ?opens⟩
    case refused =>
      rw [zero, noEntries] at out
      rw [State.takePatOpen_refused _ _ _ out]
      rfl
    case opens =>
      rw [Ne, zero] at pos
      rw [Ne, noEntries] at one
      rw [State.takePatOpen_opens _ _ _ (by omega), openedBuffer_eq]
      rfl
  case right =>
    intro sequence entries heard
    rw [exec_patStep_of_hears heard]
    refine ⟨fun closed => ?_, fun b isOpen => ⟨fun bad => ?_, fun next room => ?_, ?clamped⟩⟩
    · rw [State.takePatStep_closed (s := s.heard) closed]
      rfl
    · rw [State.takePatStep_fails (s := s.heard) isOpen bad]
      rfl
    · rw [State.takePatStep_joins (s := s.heard) isOpen next room]
      rfl
    case clamped => exact ⟨clampEntry_fold, clampEntry_flat, clampEntry_group, rfl, rfl⟩

end Sys2Proof.Machine
end

section
/-! SUPPORT. The slots of the Pattern Store: the lowest slot of a kind, an operation that joins the FIFO, a slot reserved or retired, and
the checks of PAT_CLOSE and PAT_ERASE (R102, R105 to R108). -/

namespace Sys2Proof.Machine

/-! ### The lowest slot of a kind -/

theorem find?_allSlots (p : Fin 32 → Bool) : allSlots.find? p = Fin.find? p :=
  Fin.find?_eq_find?_finRange.symm

theorem Store.emptySlot_eq_some {st : Store} {i : Fin 32} (empty : (st.record i).state = .empty)
    (lowest : ∀ j < i, (st.record j).state ≠ .empty) : st.emptySlot = some i := by
  rw [Store.emptySlot, find?_allSlots, Fin.find?_eq_some_iff]
  simpa using ⟨empty, lowest⟩

theorem Store.emptySlot_eq_none_iff (st : Store) : st.emptySlot = none ↔ ∀ i, (st.record i).state ≠ .empty := by
  simp [Store.emptySlot, find?_allSlots]

theorem Store.slotOf_isSome_iff (st : Store) (state : SlotState) (id : Nat) :
    (st.slotOf state id).isSome ↔ ∃ i, (st.record i).state = state ∧ (st.record i).id = some id := by
  simp [Store.slotOf, find?_allSlots]

theorem Store.validSlot_eq_some {st : Store} {i : Fin 32} {id : Nat} (valid : (st.record i).state = .valid)
    (hasId : (st.record i).id = some id)
    (lowest : ∀ j < i, (st.record j).state = .valid → (st.record j).id ≠ some id) : st.validSlot id = some i := by
  rw [Store.validSlot, Store.slotOf, find?_allSlots, Fin.find?_eq_some_iff]
  simpa [valid, hasId] using lowest

theorem Store.validSlot_eq_none {st : Store} {id : Nat}
    (absent : ∀ i, (st.record i).state = .valid → (st.record i).id ≠ some id) : st.validSlot id = none := by
  simpa [Store.validSlot, Store.slotOf, find?_allSlots] using absent

theorem Store.protectedCopy_iff (st : Store) (boundary id : Nat) :
    st.protectedCopy boundary id = true ↔
      id ≤ boundary ∧
        ∃ i, ((st.record i).state = .valid ∨ (st.record i).state = .programming) ∧ (st.record i).id = some id := by
  simp only [Store.protectedCopy, Bool.and_eq_true, Bool.or_eq_true, decide_eq_true_eq, Store.slotOf_isSome_iff,
    ← exists_or, ← or_and_right]

/-- A lookup reads VALID slots alone: slots that are VALID neither before nor after may differ. -/
theorem Store.lookup_eq_of_valid_slots {a b : Store}
    (same : ∀ j, a.record j = b.record j ∧ a.cell j = b.cell j ∨ (a.record j).state ≠ .valid ∧ (b.record j).state ≠ .valid)
    (id : Nat) : a.lookup id = b.lookup id := by
  have slot : a.validSlot id = b.validSlot id := by
    unfold Store.validSlot Store.slotOf
    congr 1
    funext j
    rcases same j with ⟨record, -⟩ | ⟨notA, notB⟩
    · rw [record]
    · simp [notA, notB]
  unfold Store.lookup
  rw [← slot]
  cases found : a.validSlot id with
  | none => rfl
  | some j =>
    rcases same j with ⟨-, cell⟩ | ⟨notValid, -⟩
    · simp only [cell]
    · exact absurd (Store.validSlot_valid found).1 notValid

/-! ### An operation joins the FIFO (R108) -/

@[simp] theorem Store.setRecord_same (st : Store) (i : Fin 32) (r : SlotRecord) :
    (st.setRecord i r).buffer = st.buffer ∧ (st.setRecord i r).ops = st.ops ∧ (st.setRecord i r).phase = st.phase ∧
      (st.setRecord i r).opTime = st.opTime ∧ (st.setRecord i r).serving = st.serving := by
  simp [Store.setRecord]

@[simp] theorem Store.setCell_same (st : Store) (i : Fin 32) (c : Option NvRecord) :
    (st.setCell i c).buffer = st.buffer ∧ (st.setCell i c).ops = st.ops ∧ (st.setCell i c).phase = st.phase ∧
      (st.setCell i c).opTime = st.opTime ∧ (st.setCell i c).serving = st.serving := by
  simp [Store.setCell]

@[simp] theorem Store.beginOp_same (st : Store) :
    st.beginOp.buffer = st.buffer ∧ st.beginOp.ops = st.ops ∧ st.beginOp.serving = st.serving := by
  unfold Store.beginOp
  split
  · split <;> simp
  · simp

@[simp] theorem Store.queueOp_same (st : Store) (op : NvOp) :
    (st.queueOp op).buffer = st.buffer ∧ (st.queueOp op).ops = st.ops ++ [op] := by
  simp [Store.queueOp]

/-- While an operation runs or a lookup is served, the new one waits. -/
theorem Store.queueOp_waits {st : Store} (busy : st.phase ≠ none ∨ st.serving ≠ none) (op : NvOp) :
    st.queueOp op = { st with ops := st.ops ++ [op] } := by
  unfold Store.queueOp Store.beginOp
  split
  · simp_all
  · rfl

theorem Store.queueOp_program_begins {st : Store} (idle : st.phase = none) (free : st.serving = none) (noOps : st.ops = [])
    (i : Fin 32) (p : Pattern) :
    st.queueOp (.program i p) =
      Store.setCell { st with ops := [.program i p], phase := some .writing, opTime := 20000 + 250 * p.entries.length } i
        (some { pattern := p, version := 0, marker := false, checkGood := false, retired := false }) := by
  simp [Store.queueOp, Store.beginOp, idle, free, noOps, opDuration]

theorem Store.queueOp_erase_begins {st : Store} (idle : st.phase = none) (free : st.serving = none) (noOps : st.ops = [])
    (i : Fin 32) :
    st.queueOp (.erase i) =
      Store.setRecord { st with ops := [.erase i], phase := some .writing, opTime := 45000 } i
        { st.record i with state := .erasing } := by
  simp [Store.queueOp, Store.beginOp, idle, free, noOps, opDuration, Store.record]

/-- An operation that joins the FIFO changes the record of an erase's slot and the cell of its own slot, if any, unless an older one has yet
to begin. -/
theorem Store.queueOp_keeps {st : Store} (ready : st.phase ≠ none ∨ st.serving ≠ none ∨ st.ops = []) (op : NvOp)
    (j : Fin 32) :
    (op ≠ .erase j → (st.queueOp op).record j = st.record j) ∧ (op.slot ≠ j → (st.queueOp op).cell j = st.cell j) := by
  by_cases busy : st.phase ≠ none ∨ st.serving ≠ none
  · rw [Store.queueOp_waits busy]
    exact ⟨fun _ => rfl, fun _ => rfl⟩
  · obtain ⟨idle, free⟩ : st.phase = none ∧ st.serving = none := by simpa using busy
    have noOps : st.ops = [] := by simpa [idle, free] using ready
    cases op with
    | program i p =>
      rw [Store.queueOp_program_begins idle free noOps]
      exact ⟨fun _ => rfl, fun other => (Store.setCell_cell ..).trans (if_neg other)⟩
    | erase i =>
      rw [Store.queueOp_erase_begins idle free noOps]
      exact ⟨fun other => (Store.setRecord_record ..).trans (if_neg fun own => other (congrArg _ own)), fun _ => rfl⟩

/-! ### A slot reserved (R106) -/

/-- The store with a slot reserved for the buffer's pattern and the buffer CLOSED, before the program is queued. -/
def Store.reserved (st : Store) (i : Fin 32) (b : Buffer) : Store :=
  Store.setRecord { st with buffer := none } i
    { state := .programming, id := some b.id, version := none, count := some b.entries.length }

theorem Store.reserve_of_emptySlot {st : Store} {i : Fin 32} (lowest : st.emptySlot = some i) (b : Buffer) :
    st.reserve b = (st.reserved i b).queueOp (.program i b.pattern) := by
  simp only [Store.reserve, lowest, Store.reserved]

@[simp] theorem Store.reserved_record (st : Store) (i j : Fin 32) (b : Buffer) :
    (st.reserved i b).record j =
      if i = j then { state := .programming, id := some b.id, version := none, count := some b.entries.length }
      else st.record j :=
  Store.setRecord_record ..

section
variable {st : Store} {i : Fin 32} (b : Buffer)

/-- The reserved slot keeps its record as its program joins the FIFO, begun or not. -/
theorem Store.reserve_record (lowest : st.emptySlot = some i) (ready : st.phase ≠ none ∨ st.serving ≠ none ∨ st.ops = [])
    (j : Fin 32) : (st.reserve b).record j = (st.reserved i b).record j := by
  rw [Store.reserve_of_emptySlot lowest]
  exact (Store.queueOp_keeps (st := st.reserved i b) ready _ j).1 nofun

theorem Store.reserve_cell (lowest : st.emptySlot = some i) (ready : st.phase ≠ none ∨ st.serving ≠ none ∨ st.ops = [])
    {j : Fin 32} (other : i ≠ j) : (st.reserve b).cell j = st.cell j := by
  rw [Store.reserve_of_emptySlot lowest]
  exact (Store.queueOp_keeps (st := st.reserved i b) ready _ j).2 other

theorem Store.reserve_ops (lowest : st.emptySlot = some i) :
    (st.reserve b).ops = st.ops ++ [.program i b.pattern] ∧ (st.reserve b).buffer = none := by
  simp [Store.reserve_of_emptySlot lowest, Store.reserved]

/-- A reservation changes no lookup: its slot is VALID neither before nor after. -/
theorem Store.reserve_lookup (lowest : st.emptySlot = some i) (empty : (st.record i).state = .empty)
    (ready : st.phase ≠ none ∨ st.serving ≠ none ∨ st.ops = []) (id : Nat) : (st.reserve b).lookup id = st.lookup id := by
  refine Store.lookup_eq_of_valid_slots (fun j => ?_) id
  rw [Store.reserve_record b lowest ready, Store.reserved_record]
  by_cases own : i = j
  · simp [← own, empty]
  · simp [own, Store.reserve_cell b lowest ready own]

end

/-! ### A slot retired (R97, R107) -/

/-- The store with a slot RETIRED and marked so in the array, before its erase is queued. -/
def Store.marked (st : Store) (i : Fin 32) : Store :=
  (st.setRecord i { st.record i with state := .retired }).setCell i ((st.cell i).map fun r => { r with retired := true })

theorem Store.retire_eq (st : Store) (i : Fin 32) : st.retire i = (st.marked i).queueOp (.erase i) := rfl

@[simp] theorem Store.marked_same (st : Store) (i : Fin 32) :
    (st.marked i).buffer = st.buffer ∧ (st.marked i).ops = st.ops ∧ (st.marked i).phase = st.phase ∧
      (st.marked i).serving = st.serving := by
  simp [Store.marked]

theorem Store.marked_record (st : Store) (i j : Fin 32) :
    (st.marked i).record j = if i = j then { st.record i with state := .retired } else st.record j :=
  Store.setRecord_record ..

theorem Store.marked_cell_other (st : Store) {i j : Fin 32} (other : i ≠ j) : (st.marked i).cell j = st.cell j :=
  (Store.setCell_cell ..).trans (if_neg other)

theorem Store.retire_same (st : Store) (i : Fin 32) :
    (st.retire i).ops = st.ops ++ [.erase i] ∧ (st.retire i).buffer = st.buffer := by
  simp [Store.retire_eq]

theorem Store.retire_waits {st : Store} (busy : st.phase ≠ none ∨ st.serving ≠ none) (i : Fin 32) :
    ((st.retire i).record i).state = .retired := by
  rw [Store.retire_eq, Store.queueOp_waits (by simpa using busy)]
  exact congrArg SlotRecord.state ((st.marked_record i i).trans (if_pos rfl))

theorem Store.retire_begins {st : Store} (idle : st.phase = none) (free : st.serving = none) (noOps : st.ops = [])
    (i : Fin 32) :
    ((st.retire i).record i).state = .erasing ∧ (st.retire i).phase = some .writing ∧ (st.retire i).opTime = 45000 := by
  rw [Store.retire_eq, Store.queueOp_erase_begins (by simpa using idle) (by simpa using free) (by simpa using noOps)]
  simp

theorem Store.retire_other_slot {st : Store} (ready : st.phase ≠ none ∨ st.serving ≠ none ∨ st.ops = []) {i j : Fin 32}
    (other : i ≠ j) : (st.retire i).record j = st.record j ∧ (st.retire i).cell j = st.cell j := by
  obtain ⟨record, cell⟩ := Store.queueOp_keeps (st := st.marked i) ready (.erase i) j
  rw [Store.retire_eq, record (by simpa using other), cell other, st.marked_record, if_neg other]
  exact ⟨rfl, st.marked_cell_other other⟩

/-! ### The checks of a close and of an erase (R102 to R107) -/

/-- The checks of a close in their order, with the first and the fourth said by what they mean (R102 to R105). -/
theorem State.closeCheck_eq {s : State} {b : Buffer} {pattern count : Nat} {sequenceGood isProtected : Prop}
    [Decidable sequenceGood] [Decidable isProtected]
    (sequenceGood_iff : sequenceGood ↔ pattern = b.id ∧ count = b.announced ∧ b.entries.length = b.announced)
    (isProtected_iff : isProtected ↔ s.store.protectedCopy s.cfg.protectBoundary b.id = true) :
    s.closeCheck b pattern count =
      if ¬ sequenceGood then some .sequence
      else if structureGood b.entries = false then some .structureBad
      else if b.nominal < b.leadIn + expandedConsumption b.entries then some .tooLong
      else if isProtected then some .protectedId
      else if ∀ i, (s.store.record i).state ≠ .empty then some .storeFull
      else none := by
  simp only [State.closeCheck, lengthGood, sequenceGood_iff, isProtected_iff, Store.emptySlot_eq_none_iff, not_and_or,
    decide_eq_false_iff_not, not_le, ne_eq]

section
variable {s : State} {b : Buffer} {pattern : Nat}

theorem State.takePatClose_closed {count : Nat} (closed : s.store.buffer = none) :
    s.takePatClose pattern count = s.refuse .patClose .sequence := by
  simp only [State.takePatClose, closed]

theorem State.takePatClose_refused {count : Nat} {c : RefusalCause} (isOpen : s.store.buffer = some b)
    (fails : s.closeCheck b pattern count = some c) :
    s.takePatClose pattern count = State.refuse { s with store := { s.store with buffer := none } } .patClose c := by
  simp only [State.takePatClose, isOpen, fails]

theorem State.takePatClose_reserves {count : Nat} (isOpen : s.store.buffer = some b)
    (passes : s.closeCheck b pattern count = none) :
    s.takePatClose pattern count = { s with store := s.store.reserve b } := by
  simp only [State.takePatClose, isOpen, passes]

theorem State.takePatErase_refused (out : pattern = 0 ∨ 4095 < pattern) :
    s.takePatErase pattern = s.refuse .patErase .outOfRange :=
  if_pos out

theorem State.takePatErase_protected (inRange : ¬ (pattern = 0 ∨ 4095 < pattern))
    (protectedId : pattern ≤ s.cfg.protectBoundary) : s.takePatErase pattern = s.refuse .patErase .protectedId := by
  rw [State.takePatErase, if_neg inRange, if_pos protectedId]

theorem State.takePatErase_missing (inRange : ¬ (pattern = 0 ∨ 4095 < pattern))
    (unprotected : s.cfg.protectBoundary < pattern) (missing : s.store.validSlot pattern = none) :
    s.takePatErase pattern = s.refuse .patErase .notFound := by
  rw [State.takePatErase, if_neg inRange, if_neg (by omega), missing]

theorem State.takePatErase_retires {i : Fin 32} (inRange : ¬ (pattern = 0 ∨ 4095 < pattern))
    (unprotected : s.cfg.protectBoundary < pattern) (found : s.store.validSlot pattern = some i) :
    s.takePatErase pattern = { s with store := s.store.retire i } := by
  rw [State.takePatErase, if_neg inRange, if_neg (by omega), found]

end

/-! ### The frames PAT_CLOSE and PAT_ERASE -/

section
variable {s : State} {bytes : List Byte} {sender : BitVec 4} {targets pattern : BitVec 16} {count : Byte}

/-- A PAT_CLOSE that fails a check is refused with that check's cause, and the buffer becomes CLOSED (R102). -/
theorem exec_patClose_refused {b : Buffer} {c : RefusalCause} (heard : s.hears bytes ⟨sender, .patClose targets pattern count⟩)
    (isOpen : s.store.buffer = some b) (fails : s.closeCheck b pattern.toNat count.toNat = some c) :
    exec (.patClose bytes) s =
      .next
        { s.heard with
          store := { s.store with buffer := none }
          events := { s.events with refusedKind := 0x17, refusalCause := c.code } } := by
  rw [exec_patClose_of_hears heard, State.takePatClose_refused (s := s.heard) isOpen fails]
  rfl

/-- A PAT_CLOSE that passes every check reserves the slot and queues its program (R106). -/
theorem exec_patClose_reserves {b : Buffer} {i : Fin 32} (heard : s.hears bytes ⟨sender, .patClose targets pattern count⟩)
    (isOpen : s.store.buffer = some b) (passes : s.closeCheck b pattern.toNat count.toNat = none)
    (ready : s.store.phase ≠ none ∨ s.store.serving ≠ none ∨ s.store.ops = [])
    (empty : (s.store.record i).state = .empty) (lowest : ∀ j < i, (s.store.record j).state ≠ .empty) :
    ∃ t, exec (.patClose bytes) s = .next t ∧ t.store.buffer = none ∧
      (t.store.record i).state = .programming ∧ (t.store.record i).id = some b.id ∧
      (t.store.record i).count = some b.entries.length ∧ t.store.ops = s.store.ops ++ [.program i b.pattern] ∧
      (∀ id : Nat, t.store.lookup id = s.store.lookup id) ∧ t = { s.heard with store := t.store } := by
  have slot := Store.emptySlot_eq_some empty lowest
  obtain ⟨ops, buffer⟩ := Store.reserve_ops b slot
  have record := Store.reserve_record b slot ready i
  rw [Store.reserved_record, if_pos rfl] at record
  refine ⟨_, (exec_patClose_of_hears heard).trans (congrArg _ (State.takePatClose_reserves (s := s.heard) isOpen passes)),
    buffer, ?_, ?_, ?_, ops, Store.reserve_lookup b slot empty ready, rfl⟩
  · exact congrArg SlotRecord.state record
  · exact congrArg SlotRecord.id record
  · exact congrArg SlotRecord.count record

/-- A PAT_ERASE of a VALID slot's id retires the slot and queues its erase (R107). -/
theorem exec_patErase_retires {i : Fin 32} (heard : s.hears bytes ⟨sender, .patErase targets pattern⟩)
    (inRange : ¬ (pattern.toNat = 0 ∨ 4095 < pattern.toNat)) (unprotected : s.cfg.protectBoundary < pattern.toNat)
    (found : s.store.validSlot pattern.toNat = some i) :
    exec (.patErase bytes) s = .next { s.heard with store := s.store.retire i } :=
  (exec_patErase_of_hears heard).trans (congrArg _ (State.takePatErase_retires (s := s.heard) inRange unprotected found))

end

end Sys2Proof.Machine
end

section
/-! SUPPORT. The structure check of PAT_CLOSE, said of the entries before each place: how many groups were opened and closed, and whether
the innermost open group holds a GROUP (R103). -/

namespace Sys2Proof.Machine

/-! ### The entries before a place -/

def Entry.isGroup : Entry → Bool
  | .group _ => true
  | .fold .. | .flat _ | .close | .mirror => false

def groupsBefore (es : List Entry) (n : Nat) : Nat := (es.take n).countP Entry.isGroup

def endsBefore (es : List Entry) (n : Nat) : Nat := (es.take n).count .close

/-- Any test that picks the GROUPs counts them. -/
theorem length_filter_eq_groupsBefore {test : Entry → Bool} (picks : ∀ e, test e = e.isGroup) (es : List Entry) (n : Nat) :
    ((es.take n).filter test).length = groupsBefore es n := by
  rw [funext picks, groupsBefore, List.countP_eq_length_filter]

theorem groupsBefore_succ {es : List Entry} {n : Nat} {e : Entry} (here : es[n]? = some e) :
    groupsBefore es (n + 1) = groupsBefore es n + if e.isGroup then 1 else 0 := by
  simp [groupsBefore, List.take_add_one, here, List.countP_singleton]

theorem endsBefore_succ {es : List Entry} {n : Nat} {e : Entry} (here : es[n]? = some e) :
    endsBefore es (n + 1) = endsBefore es n + if e = .close then 1 else 0 := by
  simp [endsBefore, List.take_add_one, here, List.count_singleton]

/-- The last GROUP or END before a place is a GROUP: the innermost group open there holds no GROUP yet. -/
def insidePlainGroup (es : List Entry) (n : Nat) : Prop :=
  ∃ j c, j < n ∧ es[j]? = some (.group c) ∧ ∀ k, j < k → k < n → es[k]? ≠ some .close ∧ ∀ c, es[k]? ≠ some (.group c)

/-- The entry just before a place is the END of a group without a GROUP. -/
def followsPlainEnd (es : List Entry) : Nat → Prop
  | 0 => False
  | n + 1 => es[n]? = some .close ∧ insidePlainGroup es n

theorem insidePlainGroup_of_group {es : List Entry} {n c : Nat} (here : es[n]? = some (.group c)) :
    insidePlainGroup es (n + 1) :=
  ⟨n, c, n.lt_succ_self, here, fun k _ _ => by omega⟩

theorem not_insidePlainGroup_of_close {es : List Entry} {n : Nat} (here : es[n]? = some .close) :
    ¬ insidePlainGroup es (n + 1) := by
  rintro ⟨j, c, before, group, clear⟩
  have other : j ≠ n := by
    rintro rfl
    simp [here] at group
  exact (clear n (by omega) n.lt_succ_self).1 here

/-- Any entry but a GROUP or an END leaves the innermost open group as it is. -/
theorem insidePlainGroup_succ {es : List Entry} {n : Nat} (notClose : es[n]? ≠ some .close)
    (notGroup : ∀ c, es[n]? ≠ some (.group c)) : insidePlainGroup es (n + 1) ↔ insidePlainGroup es n := by
  constructor
  · rintro ⟨j, c, before, group, clear⟩
    have other : j ≠ n := by
      rintro rfl
      exact notGroup c group
    exact ⟨j, c, by omega, group, fun k after upTo => clear k after (by omega)⟩
  · rintro ⟨j, c, before, group, clear⟩
    refine ⟨j, c, by omega, group, fun k after upTo => ?_⟩
    obtain rfl | earlier : k = n ∨ k < n := by omega
    · exact ⟨notClose, notGroup⟩
    · exact clear k after earlier

theorem followsPlainEnd_iff (es : List Entry) (i : Nat) :
    followsPlainEnd es i ↔
      ∃ j c, j + 2 ≤ i ∧ es[i - 1]? = some .close ∧ es[j]? = some (.group c) ∧
        ∀ k, j < k → k < i - 1 → es[k]? ≠ some .close ∧ ∀ c, es[k]? ≠ some (.group c) := by
  cases i with
  | zero => simp [followsPlainEnd]
  | succ n =>
    constructor
    · rintro ⟨close, j, c, before, group, clear⟩
      exact ⟨j, c, by omega, close, group, clear⟩
    · rintro ⟨j, c, before, close, group, clear⟩
      exact ⟨close, j, c, by omega, group, clear⟩

/-! ### The walk -/

/-- The walk of the structure check over the entries before a place. -/
def structureWalk (es : List Entry) (n : Nat) : Option StructureWalk :=
  (es.take n).foldl structureStep (some { isOpen := [], afterPlainEnd := false })

theorem structureGood_iff_walk (es : List Entry) :
    structureGood es = true ↔ ∃ w, structureWalk es es.length = some w ∧ w.isOpen = [] := by
  unfold structureGood structureWalk
  rw [List.take_length]
  cases es.foldl structureStep _ <;> simp

theorem structureWalk_succ {es : List Entry} {n : Nat} {e : Entry} (here : es[n]? = some e) :
    structureWalk es (n + 1) = structureStep (structureWalk es n) e := by
  simp [structureWalk, List.take_add_one, here]

/-- What the walk's state says of the entries before a place: only the innermost open group can be without a GROUP. -/
structure StructureWalk.Tracks (es : List Entry) (n : Nat) (w : StructureWalk) : Prop where
  depth : groupsBefore es n = endsBefore es n + w.isOpen.length
  shallow : w.isOpen.length ≤ 4
  innermost : ∀ b, w.isOpen.head? = some b → (b = false ↔ insidePlainGroup es n)
  outer : ∀ b ∈ w.isOpen.tail, b = true
  plainEnd : w.afterPlainEnd = true ↔ followsPlainEnd es n

/-- The open groups as a GROUP within the innermost leaves them. -/
def enclosing : List Bool → List Bool
  | [] => []
  | _ :: rest => true :: rest

@[simp] theorem enclosing_length (l : List Bool) : (enclosing l).length = l.length := by
  cases l <;> rfl

theorem enclosing_all {l : List Bool} (outer : ∀ b ∈ l.tail, b = true) : ∀ b ∈ enclosing l, b = true := by
  cases l with
  | nil => nofun
  | cons => simpa [enclosing] using outer

theorem structureStep_group (w : StructureWalk) (c : Nat) :
    structureStep (some w) (.group c) =
      if w.isOpen.length < 4 then some { isOpen := false :: enclosing w.isOpen, afterPlainEnd := false } else none := by
  obtain ⟨isOpen, -⟩ := w
  cases isOpen <;> rfl

/-- The entry at a place passes the structure check, by the entries up to it (R103). -/
def entryPasses (es : List Entry) (n : Nat) : Prop :=
  endsBefore es (n + 1) ≤ groupsBefore es (n + 1) ∧ groupsBefore es (n + 1) ≤ endsBefore es (n + 1) + 4 ∧
    (es[n]? = some .mirror → followsPlainEnd es n)

section
variable {es : List Entry} {n : Nat} {w w' : StructureWalk} {e : Entry}

theorem StructureWalk.tracks_start (es : List Entry) :
    StructureWalk.Tracks es 0 { isOpen := [], afterPlainEnd := false } := by
  constructor <;> simp [groupsBefore, endsBefore, followsPlainEnd]

/-- The step fails just where the entry does not pass. -/
theorem structureStep_isSome_iff (tracks : w.Tracks es n) (here : es[n]? = some e) :
    (structureStep (some w) e).isSome ↔ entryPasses es n := by
  obtain ⟨depth, shallow, -, -, plainEnd⟩ := tracks
  unfold entryPasses
  rw [groupsBefore_succ here, endsBefore_succ here, here, depth]
  cases e with
  | fold | flat => simp [structureStep, Entry.isGroup, shallow]
  | group c =>
    simp [structureStep_group, Entry.isGroup]
    omega
  | close =>
    cases isOpen : w.isOpen with
    | nil => simp [structureStep, Entry.isGroup, isOpen]
    | cons b rest =>
      simp [structureStep, Entry.isGroup, isOpen] at shallow ⊢
      omega
  | mirror => simp [structureStep, Entry.isGroup, shallow, plainEnd]

/-- An entry that is no GROUP, END or MIRROR, or is a MIRROR that passes, leaves the open groups as they are. -/
theorem StructureWalk.Tracks.plain (tracks : w.Tracks es n) (here : es[n]? = some e) (notClose : e ≠ .close)
    (notGroup : e.isGroup = false) : StructureWalk.Tracks es (n + 1) { w with afterPlainEnd := false } := by
  obtain ⟨depth, shallow, innermost, outer, -⟩ := tracks
  have notGroupHere : ∀ c, es[n]? ≠ some (.group c) := by
    rintro c group
    obtain rfl : e = .group c := Option.some.inj (here.symm.trans group)
    cases notGroup
  refine ⟨?_, shallow, ?_, outer, ?_⟩
  · simp [groupsBefore_succ here, endsBefore_succ here, notClose, notGroup, depth]
  · rw [insidePlainGroup_succ (by simpa [here] using notClose) notGroupHere]
    exact innermost
  · simp [followsPlainEnd, here, notClose]

/-- A step keeps the walk true to the entries. -/
theorem structureStep_tracks (tracks : w.Tracks es n) (here : es[n]? = some e)
    (step : structureStep (some w) e = some w') : w'.Tracks es (n + 1) := by
  cases e with
  | fold | flat =>
    cases step
    exact tracks.plain here nofun rfl
  | mirror =>
    simp only [structureStep] at step
    split at step
    · cases step
      exact tracks.plain here nofun rfl
    · cases step
  | group c =>
    obtain ⟨depth, -, -, outer, -⟩ := tracks
    rw [structureStep_group] at step
    split at step
    next room =>
      cases step
      refine ⟨?_, ?_, ?_, enclosing_all outer, ?_⟩
      · simp [groupsBefore_succ here, endsBefore_succ here, Entry.isGroup, depth, Nat.add_assoc]
      · simpa using room
      · simp [insidePlainGroup_of_group here]
      · simp [followsPlainEnd, here]
    next => cases step
  | close =>
    obtain ⟨depth, shallow, innermost, outer, -⟩ := tracks
    simp only [structureStep] at step
    split at step
    next => cases step
    next holdsGroup rest isOpen =>
      cases step
      rw [isOpen] at depth shallow innermost outer
      refine ⟨?_, Nat.le_of_succ_le shallow, fun b head => ?_, fun b mem => outer b (List.mem_of_mem_tail mem), ?_⟩
      · rw [groupsBefore_succ here, endsBefore_succ here, depth]
        simp [Entry.isGroup, Nat.add_assoc, Nat.add_comm]
      · simp [outer b (List.mem_of_head? head), not_insidePlainGroup_of_close here]
      · simp [followsPlainEnd, here, ← innermost holdsGroup rfl]

/-- The walk's state tracks the entries at every place it reaches. -/
theorem structureWalk_tracks : ∀ {n}, n ≤ es.length → ∀ {w}, structureWalk es n = some w → w.Tracks es n
  | 0, _, _, walk => by
    cases walk
    exact StructureWalk.tracks_start es
  | n + 1, upTo, w, walk => by
    have here := List.getElem?_eq_getElem (show n < es.length by omega)
    rw [structureWalk_succ here] at walk
    cases before : structureWalk es n with
    | none => simp [before, structureStep] at walk
    | some v =>
      rw [before] at walk
      exact structureStep_tracks (structureWalk_tracks (by omega) before) here walk

/-- The walk reaches a place just where every entry before it passes. -/
theorem structureWalk_isSome_iff : ∀ {n}, n ≤ es.length → ((structureWalk es n).isSome ↔ ∀ k < n, entryPasses es k)
  | 0, _ => by simp [structureWalk]
  | n + 1, upTo => by
    have here := List.getElem?_eq_getElem (show n < es.length by omega)
    rw [structureWalk_succ here, Nat.forall_lt_succ_right, ← structureWalk_isSome_iff (show n ≤ es.length by omega)]
    cases before : structureWalk es n with
    | none => simp [structureStep]
    | some w => simpa using structureStep_isSome_iff (structureWalk_tracks (by omega) before) here

end

/-- The structure check passes just where every entry passes and all groups are closed at the end (R103). -/
theorem structureGood_iff (es : List Entry) :
    structureGood es = true ↔
      (∀ k < es.length, entryPasses es k) ∧ groupsBefore es es.length = endsBefore es es.length := by
  rw [structureGood_iff_walk, ← structureWalk_isSome_iff le_rfl]
  cases walk : structureWalk es es.length with
  | none => simp
  | some w =>
    have depth := (structureWalk_tracks le_rfl walk).depth
    simp [depth]

/-- At places past the end nothing is added, and before the first entry nothing is there. -/
theorem forall_entryPasses_iff (es : List Entry) :
    (∀ k < es.length, entryPasses es k) ↔
      (∀ k, endsBefore es k ≤ groupsBefore es k ∧ groupsBefore es k ≤ endsBefore es k + 4) ∧
        ∀ i, es[i]? = some .mirror → followsPlainEnd es i := by
  constructor
  · intro passes
    have upToEnd : ∀ k ≤ es.length, endsBefore es k ≤ groupsBefore es k ∧ groupsBefore es k ≤ endsBefore es k + 4
      | 0, _ => by simp [endsBefore, groupsBefore]
      | k + 1, upTo => ⟨(passes k upTo).1, (passes k upTo).2.1⟩
    refine ⟨fun k => ?_, fun i mirror => ?_⟩
    · rcases le_total k es.length with within | past
      · exact upToEnd k within
      · simpa [endsBefore, groupsBefore, List.take_of_length_le past] using upToEnd es.length le_rfl
    · obtain ⟨within, -⟩ := List.getElem?_eq_some_iff.1 mirror
      exact (passes i within).2.2 mirror
  · rintro ⟨counts, mirrors⟩ k -
    exact ⟨(counts (k + 1)).1, (counts (k + 1)).2, mirrors k⟩

end Sys2Proof.Machine
end

section
/-! SUPPORT. The expanded consumption is the length of the play order: the meter of R104 is the expansion of R143 to R145 with its lists of
elements measured (R104, R120, R121). -/

namespace Sys2Proof.Machine

/-- The nominal length of a list of elements (R121). -/
def elementsLength (xs : List Element) : Nat := (xs.map Element.length).sum

@[simp] theorem elementsLength_nil : elementsLength [] = 0 := rfl

@[simp] theorem elementsLength_append (xs ys : List Element) :
    elementsLength (xs ++ ys) = elementsLength xs + elementsLength ys := by
  simp [elementsLength]

@[simp] theorem elementsLength_replicate (n : Nat) (xs : List Element) :
    elementsLength (List.replicate n xs).flatten = n * elementsLength xs := by
  simp [elementsLength, List.map_flatten, List.sum_flatten]

theorem Element.mirrored_length (x : Element) : x.mirrored.length = x.length := by
  cases x <;> rfl

/-- A mirrored replay is as long as the group it mirrors. -/
@[simp] theorem elementsLength_mirrored (xs : List Element) :
    elementsLength (xs.map Element.mirrored).reverse = elementsLength xs := by
  simp [elementsLength, Function.comp_def, Element.mirrored_length]

theorem entryConsumption_eq_elementsLength (e : Entry) : entryConsumption e = elementsLength e.elements := by
  cases e <;> simp [entryConsumption, Entry.elements, elementsLength, Element.length, Function.comp_def]

/-- An expansion with each of its lists measured. -/
def Expansion.meter (x : Expansion) : Meter :=
  { total := elementsLength x.done
    stack := x.isOpen.map fun g => (g.1, elementsLength g.2)
    last := elementsLength x.closed }

/-- One entry written out and measured is one entry metered. -/
theorem Expansion.take_meter (x : Expansion) (e : Entry) : x.meter.take entryConsumption 0 e = (x.take e).meter := by
  cases e with
  | fold | flat => simp [Meter.take, Expansion.take, Expansion.meter, entryConsumption_eq_elementsLength]
  | group c => simp [Meter.take, Expansion.take, Expansion.meter]
  | close =>
    obtain ⟨done, isOpen, closed⟩ := x
    cases isOpen <;> simp [Meter.take, Expansion.take, Expansion.meter]
  | mirror => simp [Meter.take, Expansion.take, Expansion.meter]

/-- The expanded consumption is the sum of the lengths in play order (R104). -/
theorem expandedConsumption_eq_playOrder (es : List Entry) :
    expandedConsumption es = ((playOrder es).map Element.length).sum :=
  congrArg Meter.total
    (List.foldl_hom Expansion.meter (init := { done := [], isOpen := [], closed := [] }) fun x e => x.take_meter e)

/-! ### The consumption of a FOLD (R120) -/

theorem clampInt_toNat {a b : Nat} (le : a ≤ b) (v : Int) : ((clampInt a b v).toNat : Int) = max (a : Int) (min b v) := by
  rw [clampInt_eq_max_min (by omega), Int.toNat_of_nonneg (by omega)]

theorem foldConsumption_eq (face depth : Nat) (gradeFace gradeDepth : Int) (k : Nat) :
    (foldConsumption face depth gradeFace gradeDepth k : Int) =
      max 200 (min 8000 ((face : Int) + (k : Int) * gradeFace)) +
        2 * max 100 (min 4000 ((depth : Int) + (k : Int) * gradeDepth)) := by
  rw [foldConsumption, gradedFace, gradedDepth, Nat.cast_add, Nat.cast_mul]
  exact congrArg₂ (fun face depth : Int => face + 2 * depth) (clampInt_toNat (by decide) _) (clampInt_toNat (by decide) _)

theorem expandedConsumption_fold (hand : Hand) (face depth rep : Nat) (gradeFace gradeDepth : Int) :
    expandedConsumption [.fold hand face depth rep gradeFace gradeDepth] =
      ((List.range rep).map (foldConsumption face depth gradeFace gradeDepth)).sum :=
  Nat.zero_add _

end Sys2Proof.Machine
end

section
/-! SUPPORT. The statement on PAT_CLOSE and PAT_ERASE, part by part (R102 to R107). -/

namespace Sys2Proof.Machine

/-- Settles O45: a frame heard is its owner's part, whose checks stand in the statement's order; the structure check is told by the counts
before each place, and the expanded consumption is the length of the play order. -/
theorem patternFramesCloseAndErase : Obligations.PatternFramesCloseAndErase := by
  refine ⟨fun s bytes sender targets pattern => ⟨fun count heard => ⟨?closed, ?judged⟩, fun heard => ⟨?out, ?inRange⟩⟩,
    ?structureCheck, expandedConsumption_eq_playOrder, ?fold⟩
  case closed =>
    intro closed
    rw [exec_patClose_of_hears heard, State.takePatClose_closed (s := s.heard) closed]
    rfl
  case judged =>
    intro b sequenceGood isProtected isOpen sequenceGood_iff isProtected_iff
    rw [← Store.protectedCopy_iff] at isProtected_iff
    classical
    have check : s.closeCheck b pattern.toNat count.toNat = _ := State.closeCheck_eq sequenceGood_iff isProtected_iff
    refine ⟨fun cause fails => ?refused, fun sequenced wellFormed short unprotected ready i empty lowest => ?reserved⟩
    case refused =>
      obtain ⟨c, rfl, failed⟩ : ∃ c : RefusalCause, c.code = cause ∧ s.closeCheck b pattern.toNat count.toNat = some c := by
        rcases fails with ⟨rfl, bad⟩ | ⟨sequenced, ⟨rfl, bad⟩ | ⟨wellFormed, ⟨rfl, long⟩ | ⟨short, ⟨rfl, copied⟩ |
          ⟨unprotected, rfl, full⟩⟩⟩⟩
        · exact ⟨.sequence, rfl, by simp [check, bad]⟩
        · exact ⟨.structureBad, rfl, by simp [check, sequenced, bad]⟩
        · exact ⟨.tooLong, rfl, by simp [check, sequenced, wellFormed, long]⟩
        · exact ⟨.protectedId, rfl, by simp [check, sequenced, wellFormed, Nat.not_lt.2 short, copied]⟩
        · exact ⟨.storeFull, rfl, by simp [check, sequenced, wellFormed, Nat.not_lt.2 short, unprotected, full]⟩
      exact exec_patClose_refused heard isOpen failed
    case reserved =>
      have room : ¬ ∀ j, (s.store.record j).state ≠ .empty := fun full => full i empty
      have passes : s.closeCheck b pattern.toNat count.toNat = none := by
        rw [check, if_neg (not_not_intro sequenced), if_neg (by simp [wellFormed]), if_neg (Nat.not_lt.2 short),
          if_neg unprotected, if_neg room]
      exact exec_patClose_reserves heard isOpen passes ready empty lowest
  case out =>
    intro out
    have out' : pattern.toNat = 0 ∨ 4095 < pattern.toNat := out.imp_left (congrArg BitVec.toNat)
    rw [exec_patErase_of_hears heard, State.takePatErase_refused out']
    rfl
  case inRange =>
    intro positive small
    have inRange : ¬ (pattern.toNat = 0 ∨ 4095 < pattern.toNat) := by
      rintro (zero | large)
      · exact positive (BitVec.eq_of_toNat_eq zero)
      · omega
    refine ⟨fun protectedId => ?_, fun unprotected => ⟨fun absent => ?_, fun i valid hasId lowest => ?retired⟩⟩
    · rw [exec_patErase_of_hears heard, State.takePatErase_protected (s := s.heard) inRange protectedId]
      rfl
    · rw [exec_patErase_of_hears heard,
        State.takePatErase_missing (s := s.heard) inRange unprotected (Store.validSlot_eq_none absent)]
      rfl
    case retired =>
      have found := Store.validSlot_eq_some valid hasId lowest
      obtain ⟨ops, buffer⟩ := s.store.retire_same i
      exact ⟨_, exec_patErase_retires heard inRange unprotected found, ops, fun busy => Store.retire_waits busy i,
        fun idle free noOps => Store.retire_begins idle free noOps i,
        fun j other ready => Store.retire_other_slot ready (Ne.symm other), buffer, rfl⟩
  case structureCheck =>
    intro entries groups ends groups_eq ends_eq
    obtain rfl : groups = groupsBefore entries :=
      funext fun k => (groups_eq k).trans (length_filter_eq_groupsBefore (fun e => by cases e <;> rfl) ..)
    obtain rfl : ends = endsBefore entries := funext ends_eq
    rw [structureGood_iff, forall_entryPasses_iff]
    simp only [followsPlainEnd_iff]
    tauto
  case fold =>
    intro hand face depth rep gradeFace gradeDepth
    rw [expandedConsumption_fold, Nat.cast_list_sum, List.map_map]
    simp only [Function.comp_def, foldConsumption_eq]

end Sys2Proof.Machine
end

section
/-! SUPPORT. What every command is made of: a property of the state that the named updates keep is kept by every shared operation and, but
for the resets, the web's advance and the moves of start-up, by every command. The updates are said component by component, each with what
the rules bound in it. -/

namespace Sys2Proof.Machine

/-! ### The state after a command -/

/-- The state a command answers. -/
def State.after (s : State) (c : Instr) : State :=
  match exec c s with
  | .next t => t
  | .fault _ | .refused _ => s

/-- No command stops: each answers its next state (log 1). -/
theorem exec_eq_after (c : Instr) (s : State) : exec c s = .next (s.after c) := by
  cases c <;> rfl

theorem after_eq_of_exec {c : Instr} {s t : State} (h : exec c s = .next t) : s.after c = t := by
  rw [exec_eq_after] at h
  exact Host.Outcome.next.inj h

/-- A property that the rest of the queue does not touch and that every command keeps is kept by every step. -/
theorem step_keeps {P : State → Prop} (queue : ∀ s l, P s → P { s with pending := l }) (command : ∀ s c, P s → P (s.after c))
    {s t : State} (h : step s = .next t) (hs : P s) : P t := by
  unfold step at h
  split at h
  · exact Host.Outcome.next.inj h ▸ hs
  · exact after_eq_of_exec h ▸ command _ _ (queue s _ hs)

/-! ### What the rules bound in a component -/

/-- The handoff FIFO and the general FIFO stand within their capacities (R15, R16). -/
def Link.bounded (l : Link) : Prop := l.handoffFifo.length ≤ 8 ∧ l.generalFifo.length ≤ 4

/-- q_in stands in its range (R46). -/
def LineControl.bounded (l : LineControl) : Prop := 1 ≤ l.qIn ∧ l.qIn ≤ 65536

/-- Debt, misses and stretch stand in their ranges (R55, R67, R70). -/
def Tracker.bounded (t : Tracker) : Prop := t.debt ≤ 1000000 ∧ t.misses ≤ 255 ∧ 61440 ≤ t.stretch ∧ t.stretch ≤ 69632

/-- The Plan Queue stands within its capacity and its counter in its range (R88, R91). -/
def PlanQueue.bounded (q : PlanQueue) : Prop := q.entries.length ≤ 16 ∧ countsFromOne q.counter

/-- The ratio of a context is one at most (R128). -/
def Context.bounded (c : Option Context) : Prop := (c.map Context.qPanel).getD 0 ≤ 65536

/-- The ratios of both contexts are one at most (R128). -/
def Sequencer.bounded (q : Sequencer) : Prop := Context.bounded q.current ∧ Context.bounded q.next

/-- What R75 and R76 speak of in a feature: its entry position, and the number of a PANEL. -/
def Feature.place (f : Feature) : Pos × Option Nat := (f.entry, f.panel?.map Panel.number)

/-- The entry positions and panel numbers of a list. -/
def places (fs : List Feature) : List (Pos × Option Nat) := fs.map Feature.place

/-- The pending handoffs and the unclaimed marks of `u` are `t`'s, the oldest ones perhaps gone (R62 to R66). -/
def Tracker.waitsNoMore (t u : Tracker) : Prop :=
  u.handoffs.map PendingHandoff.arrival <:+ t.handoffs.map PendingHandoff.arrival ∧ u.marks <:+ t.marks

/-- The port alone moves: the array, the table, the operations and the buffer stay. -/
def Store.portMoves (st t : Store) : Prop :=
  t.nv = st.nv ∧ t.counter = st.counter ∧ t.table = st.table ∧ t.buffer = st.buffer ∧ t.ops = st.ops

/-- What a command but a reset and the scan can make of the store. -/
inductive State.StoreMove (s : State) : Store → Prop
  | port (st : Store) (same : s.store.portMoves st) : s.StoreMove st
  | serviceEnds : s.StoreMove s.store.endService
  | buffer (b : Option Buffer) : s.StoreMove { s.store with buffer := b }
  | reserve (b : Buffer) (pattern count : Nat) (passes : s.closeCheck b pattern count = none) (done : s.boot.phase = .done) :
      s.StoreMove (s.store.reserve b)
  | retire (i : Fin 32) (id : Nat) (unprotected : s.cfg.protectBoundary < id) (valid : s.store.validSlot id = some i)
      (done : s.boot.phase = .done) : s.StoreMove (s.store.retire i)
  | programCompletes (i : Fin 32) (p : Pattern) (rest : List NvOp) (head : s.store.ops = .program i p :: rest) :
      s.StoreMove (s.store.completeProgram i p).beginOp
  | eraseCompletes (i : Fin 32) (rest : List NvOp) (head : s.store.ops = .erase i :: rest) :
      s.StoreMove (s.store.completeErase i).beginOp

/-- What a command but a reset, the good block and the scan can make of start-up (R21, R26, R28, R29). -/
inductive State.BootMove (s : State) : Boot → Prop
  | sampled (straps : BitVec 4) (inReset : s.boot.phase = .inReset) :
      s.BootMove { s.boot with index := straps, phase := .read, cfgSelect := true, cfgSent := readRequest }
  | noIndex (inReset : s.boot.phase = .inReset) : s.BootMove { s.boot with index := 0 }
  | stops (early : s.boot.phase = .inReset ∨ s.boot.phase = .read) :
      s.BootMove { s.boot with phase := .stopped, cfgSelect := false, cfgSent := [] }
  | listens (scan : s.boot.phase = .scan) : s.BootMove { s.boot with phase := .listen, listenTimer := some 20000 }
  | done (listen : s.boot.phase = .listen) : s.BootMove { s.boot with phase := .done, listenTimer := none }

/-! ### Properties that the updates keep -/

/-- The property `P` of the state is kept by every named update the shared operations are made of, whatever the rest of the state is; `Q`
says of the positions the list compares what `P` says of the web position, the marks and the arrivals. A field that a property does not
look at takes its default. A bundle of proofs, given for each property by a definition. -/
structure Stable (P : State → Prop) (Q : Pos → Prop := fun _ => True) : Type where
  events : ∀ s e, P s → P { s with events := e } := by exact fun _ _ h => h
  link : ∀ s l, (s.link.bounded → l.bounded) → P s → P { s with link := l } := by exact fun _ _ _ h => h
  line : ∀ s l, l.state = s.line.state → l.vCmd = s.line.vCmd → l.rampTimer = s.line.rampTimer → (s.line.bounded → l.bounded) →
    P s → P { s with line := l } := by exact fun _ _ _ _ _ _ h => h
  lineState : ∀ s st, P s →
    P { s with line := { s.line with state := st }, steam := { s.steam with zones := bandsAt st s.steam.zones } } := by
      exact fun _ _ h => h
  ramp : ∀ s, s.line.rampTimer ≠ none → P s → P { s with line := { s.line with vCmd := s.ramped } } := by exact fun _ _ h => h
  steps : ∀ s a b, P s → P { s with step0 := a, step1 := b } := by exact fun _ _ _ h => h
  tracker : ∀ s t, t.position = s.tracker.position → (s.tracker.bounded → t.bounded) → s.tracker.waitsNoMore t →
    P s → P { s with tracker := t } := by exact fun _ _ _ _ _ h => h
  map : ∀ s m, (places m.features).Sublist (places s.map.features) → P s → P { s with map := m } := by exact fun _ _ _ h => h
  insert : ∀ s f, s.hasRoomFor f = true → Q f.entry → P s →
    P { s with map := { s.map with features := insertFeature f s.map.features } } := by exact fun _ _ _ _ h => h
  plan : ∀ s q, (s.plan.bounded → q.bounded) → P s → P { s with plan := q } := by exact fun _ _ _ h => h
  store : ∀ s st, s.StoreMove st → P s → P { s with store := st } := by exact fun _ _ _ h => h
  seq : ∀ s q, (s.seq.sound → q.sound) → (s.seq.bounded → q.bounded) → P s → P { s with seq := q } := by
    exact fun _ _ _ _ h => h
  steam : ∀ s m, (s.zonesSound → ∀ z ∈ m.zones, z.sound s.line.state) → P s → P { s with steam := m } := by
    exact fun _ _ _ h => h
  dose : ∀ s d, (s.dose.queue.length ≤ 64 → d.queue.length ≤ 64) → (s.dosesSound → ∀ g ∈ d.queue, g.sound) → P s →
    P { s with dose := d } := by exact fun _ _ _ _ h => h
  splice : ∀ s u, (s.splice.sound → u.sound) → (countsFromOne s.splice.counter → countsFromOne u.counter) → P s →
    P { s with splice := u } := by exact fun _ _ _ _ h => h
  free : ∀ s n, P s → P { s with free := n } := by exact fun _ _ h => h
  boot : ∀ s b, s.BootMove b → P s → P { s with boot := b } := by exact fun _ _ _ h => h
  scanRead : ∀ s, s.boot.phase = .scan → s.boot.scanReading = true → P s →
    P { s with
        store := { s.store with table := s.store.scanTable, counter := some s.store.scanCounter }
        boot := { s.boot with scanReading := false, scanMarks := s.store.scanMarks } } := by exact fun _ _ _ h => h
  scanErase : ∀ s i rest, s.boot.phase = .scan → s.boot.scanReading = false → s.boot.scanMarks = i :: rest → P s →
    P { s with
        store := (s.store.setCell i none).setRecord i SlotRecord.cleared
        boot := { s.boot with scanMarks := rest } } := by exact fun _ _ _ _ _ _ h => h
  atPosition : ∀ s, P s → Q s.tracker.position := by exact fun _ _ => trivial
  atMark : ∀ s, P s → ∀ m ∈ s.tracker.marks, Q m := by exact fun _ _ _ _ => trivial
  atArrival : ∀ s, P s → ∀ h ∈ s.tracker.handoffs, Q h.arrival := by exact fun _ _ _ _ => trivial
  atSplice : ∀ s, P s → Q (ahead s.tracker.position s.cfg.pDist) := by exact fun _ _ => trivial

end Sys2Proof.Machine
end

section
/-! SUPPORT. Every shared operation keeps a property that the named updates keep. -/

namespace Sys2Proof.Machine

theorem countsFromOne_nextNumber (n : Nat) (h : countsFromOne n) : countsFromOne (nextNumber n) := by
  unfold nextNumber
  obtain ⟨one, last⟩ := h
  split <;> exact ⟨by omega, by omega⟩

theorem Tracker.waitsNoMore_refl (t : Tracker) : t.waitsNoMore t := ⟨List.suffix_rfl, List.suffix_rfl⟩

/-! ### Changes of a list that leave every place where it is -/

theorem Feature.place_mapPanel {g : Panel → Panel} (number : ∀ p, (g p).number = p.number) (f : Feature) :
    (f.mapPanel g).place = f.place := by
  obtain ⟨body, e, o, r⟩ := f
  cases body with
  | panel p => simp [Feature.mapPanel, Feature.place, Feature.panel?, number]
  | splice n a => rfl

theorem Feature.place_markAtEntry (f : Feature) : (markAtEntry f).place = f.place := by
  obtain ⟨body, e, o, r⟩ := f
  cases body <;> rfl

theorem Panel.withCause_number (c : RejectCause) (p : Panel) : (p.withCause c).number = p.number := by
  unfold Panel.withCause
  split <;> rfl

theorem Panel.fillOutput_number (found : Option Pattern) (p : Panel) : (p.fillOutput found).number = p.number := by
  unfold Panel.fillOutput
  split <;> rfl

theorem places_modifyFirst (p : Feature → Bool) {g : Feature → Feature} (same : ∀ f, (g f).place = f.place) (fs : List Feature) :
    places (modifyFirst p g fs) = places fs :=
  modifyFirst_map p g Feature.place (fun f _ => same f) fs

theorem places_sublist {fs gs : List Feature} (h : fs.Sublist gs) : (places fs).Sublist (places gs) := h.map _

/-! ### The judging of a sound Splice Unit -/

/-- A change of the splice state within the states without a roll EXPIRING or a strobe keeps the unit sound. -/
theorem Splice.sound_of_quiet {u v : Splice} (rollA : v.rollA.state = u.rollA.state) (rollB : v.rollB.state = u.rollB.state)
    (paste : v.paste = u.paste) (cut : v.cut = u.cut) (from_ : u.state ≠ .pasting ∧ u.state ≠ .cutting)
    (h : u.sound) : v.sound := by
  obtain ⟨active, expiring, inSplice, pasting, cutting⟩ := h
  refine ⟨by rwa [rollA, rollB], by rwa [rollA, rollB], fun e => ?_, fun p => ?_, fun c => ?_⟩
  · rw [rollA, rollB] at e
    exact absurd (inSplice e) (by simp [from_])
  · exact absurd (pasting (paste ▸ p)) from_.1
  · exact absurd (cutting (cut ▸ c)) from_.2

/-- Speeds and timers are nothing to the unit's soundness. -/
theorem Splice.sound_congr {u v : Splice} (rollA : v.rollA = u.rollA) (rollB : v.rollB = u.rollB) (state : v.state = u.state)
    (paste : v.paste = u.paste) (cut : v.cut = u.cut) (h : u.sound) : v.sound := by
  unfold Splice.sound
  rw [rollA, rollB, state, paste, cut]
  exact h

namespace Stable

variable {P : State → Prop} {Q : Pos → Prop} {s : State}

/-! ### Events, frames that wait, causes and notices -/

theorem flag (k : Stable P Q) (e : Event) (h : P s) : P (s.flag e) := k.events _ _ h

theorem refuse (k : Stable P Q) (kind : FrameKind) (c : RefusalCause) (h : P s) : P (s.refuse kind c) := k.events _ _ h

theorem raiseHalt (k : Stable P Q) (e : Event) (h : P s) : P (s.raiseHalt e) := by
  unfold State.raiseHalt
  split
  · exact h
  · exact k.link _ _ id h

theorem pushHandoff (k : Stable P Q) (p : Payload) (room : s.handoffRoom = true) (h : P s) : P (s.pushHandoff p) := by
  have short : s.link.handoffFifo.length < 8 := by simp_all [State.handoffRoom]
  exact k.link _ _ (fun b => ⟨by simpa using short, b.2⟩) h

theorem offerReports (k : Stable P Q) (parts : List Payload) (h : P s) : P (s.offerReports parts) := by
  unfold State.offerReports
  split
  · next room => exact k.link _ _ (fun b => ⟨b.1, by simpa using room.1⟩) h
  · exact h

theorem planAfter (k : Stable P Q) (number : Nat) (c : RejectCause) (h : P s) : P { s with plan := s.planAfter number c } :=
  k.plan _ _ (fun b => by rwa [PlanQueue.bounded, (s.planAfter_same number c).1, (s.planAfter_same number c).2]) h

theorem keepPlaces (k : Stable P Q) (m : WebMap) (same : places m.features = places s.map.features) (h : P s) :
    P { s with map := m } :=
  k.map _ m (same ▸ List.Sublist.refl _) h

theorem setRef (k : Stable P Q) (r : Option StretchRef) (h : P s) : P { s with tracker := { s.tracker with ref := r } } :=
  k.tracker _ { s.tracker with ref := r } rfl id (Tracker.waitsNoMore_refl _) h

theorem setCause (k : Stable P Q) (number : Nat) (c : RejectCause) (h : P s) : P (s.setCause number c) := by
  unfold State.setCause
  split
  · split
    · have list := places_modifyFirst (fun f => f.isPanel number) (Feature.place_mapPanel (Panel.withCause_number c)) s.map.features
      exact k.setRef _ (k.keepPlaces (s := { s with plan := s.planAfter number c }) { s.map with features := _ } list (k.planAfter number c h))
    · exact h
  · exact h

theorem rejectNotice (k : Stable P Q) (number : Nat) (cause : Byte) (h : P s) : P (s.rejectNotice number cause) := by
  unfold State.rejectNotice
  split
  · exact k.flag _ h
  · split
    · next room => exact k.pushHandoff _ room h
    · exact k.flag _ h

theorem noticeOf (k : Stable P Q) (number : Nat) (c : RejectCause) (h : P s) : P (s.noticeOf number c) := by
  refine k.plan _ _ (fun b => ?_) (k.rejectNotice number _ h)
  split
  · exact b
  · simpa [PlanQueue.bounded] using b

theorem condemn (k : Stable P Q) (number : Nat) (c : RejectCause) (h : P s) : P (s.condemn number c) := by
  unfold State.condemn
  split
  · exact k.setCause number c h
  · exact k.noticeOf number c h

theorem endPlay (k : Stable P Q) (h : P s) : P { s with seq := { s.seq with state := .runout, play := none } } :=
  k.seq _ { s.seq with state := .runout, play := none } (fun sound => ⟨sound.1, nofun⟩) id h

theorem abandonPanel (k : Stable P Q) (c : RejectCause) (h : P s) : P (s.abandonPanel c) := by
  unfold State.abandonPanel
  split
  · next d _ => exact k.endPlay (k.condemn d.panel c h)
  · exact k.endPlay h

theorem heldAbort (k : Stable P Q) (h : P s) : P s.heldAbort := by
  unfold State.heldAbort
  split
  · exact k.abandonPanel _ h
  · exact k.abandonPanel _ h
  all_goals exact h

/-! ### The Splice Unit and the line state -/

theorem setVNew (k : Stable P Q) (v : Nat) (h : P s) : P (s.setVNew v) := by
  unfold State.setVNew
  split
  · exact h
  · exact k.steps _ s.step0 _ (k.splice _ { s.splice with vNew := v } id id h)

theorem leaveMatching (k : Stable P Q) (goal : SpliceState) (matching : s.splice.state = .matching) (h : P s) :
    P (s.leaveMatching goal) := by
  refine k.splice _ _ (fun sound => ?_) id (k.setVNew 0 h)
  have quiet : (s.setVNew 0).splice.state ≠ .pasting ∧ (s.setVNew 0).splice.state ≠ .cutting := by simp [matching]
  exact Splice.sound_of_quiet (u := (s.setVNew 0).splice) rfl rfl rfl rfl quiet sound

theorem tryMatching (k : Stable P Q) (h : P s) : P s.tryMatching := by
  unfold State.tryMatching
  split
  · next armed =>
    refine k.splice _ _ (fun sound => ?_) id (k.setVNew 0 h)
    exact Splice.sound_of_quiet (u := (s.setVNew 0).splice) rfl rfl rfl rfl (by simp [armed.1]) sound
  · exact h

theorem arm (k : Stable P Q) (quiet : s.splice.state ≠ .pasting ∧ s.splice.state ≠ .cutting) (h : P s) :
    P (State.tryMatching { s with splice := { s.splice with state := .armed } }) :=
  k.tryMatching (k.splice _ { s.splice with state := .armed } (Splice.sound_of_quiet rfl rfl rfl rfl quiet) id h)

theorem armTest (k : Stable P Q) (h : P s) : P s.armTest := by
  unfold State.armTest
  split
  · next idle => exact k.arm (by simp [idle.1]) h
  · exact h

theorem spliceOnLine (k : Stable P Q) (h : P s) : P s.spliceOnLine := by
  unfold State.spliceOnLine
  split
  · next matching =>
    split
    · exact h
    · exact k.leaveMatching _ matching h
  · exact k.tryMatching h
  all_goals exact h

theorem enterLine (k : Stable P Q) (st : LineState) (h : P s) : P (s.enterLine st) := by
  unfold State.enterLine
  have moved := k.spliceOnLine (k.lineState s st h)
  dsimp only
  split
  · exact k.heldAbort moved
  · exact moved

theorem passOn (k : Stable P Q) (h : P s) : P s.passOn := by
  unfold State.passOn
  split
  · split
    · exact k.enterLine _ h
    · exact k.enterLine _ h
    all_goals exact h
  · exact h

theorem haltOrigin (k : Stable P Q) (origin : Byte) (h : P s) : P { s with line := { s.line with haltOrigin := origin } } :=
  k.line _ { s.line with haltOrigin := origin } rfl rfl rfl id h

theorem haltLine (k : Stable P Q) (origin : Byte) (h : P s) : P (s.haltLine origin) := by
  unfold State.haltLine
  split
  · exact k.passOn (k.enterLine _ (k.haltOrigin origin h))
  · exact k.passOn (k.enterLine _ (k.haltOrigin origin h))
  · exact k.enterLine _ (k.haltOrigin origin h)
  all_goals exact h

theorem latch (k : Stable P Q) (e : Event) (h : P s) : P (s.latch e) := by
  unfold State.latch
  split
  · exact k.raiseHalt e (k.haltLine _ (k.flag e h))
  · exact k.flag e h

theorem latchDuplicate (k : Stable P Q) (h : P s) : P s.latchDuplicate :=
  k.link _ _ (fun _ => ⟨Nat.zero_le _, Nat.zero_le _⟩) (k.latch .duplicateIndex h)

/-! ### Speeds -/

theorem feedStep (k : Stable P Q) (h : P s) : P s.feedStep := by
  unfold State.feedStep
  split
  · exact k.steps _ _ s.step1 h
  · exact h

theorem followLocal (k : Stable P Q) (old : State) (h : P s) : P (State.followLocal old s) := by
  unfold State.followLocal
  split
  · exact h
  · dsimp only
    split
    · exact k.setVNew _ (k.feedStep h)
    · exact k.setVNew _ (k.feedStep h)
    all_goals exact k.feedStep h

theorem superviseMatch (k : Stable P Q) (old : State) (h : P s) : P (State.superviseMatch old s) := by
  unfold State.superviseMatch
  split
  · exact k.splice _ { s.splice with matchTimer := _ } id id h
  all_goals exact h

theorem afterSpeeds (k : Stable P Q) (old : State) (h : P s) : P (State.afterSpeeds old s) :=
  k.superviseMatch old (k.line _ { (State.followLocal old s).line with driveTimer := _ } rfl rfl rfl id (k.followLocal old h))

theorem retakeQIn (k : Stable P Q) (h : P s) : P s.retakeQIn := by
  unfold State.retakeQIn
  split
  · split
    · split
      · next q _ =>
        refine k.line _ { s.line with qIn := clamp 1 65536 q } rfl rfl rfl (fun _ => ?_) h
        show 1 ≤ clamp 1 65536 q ∧ clamp 1 65536 q ≤ 65536
        rw [clamp_eq_max_min (by decide)]
        omega
      · exact h
    · exact h
  · exact h

/-! ### The Sequencer -/

theorem requestLookup (k : Stable P Q) (l : Lookup) (h : P s) : P (s.requestLookup l) := by
  obtain ⟨nv, counter, table, buffer, ops, -⟩ := s.store.request_same l
  exact k.store _ _ (.port _ ⟨nv, counter, table, buffer, ops⟩) h

theorem setNext (k : Stable P Q) (c : Option Context) (one : Context.bounded c) (h : P s) :
    P { s with seq := { s.seq with next := c } } :=
  k.seq _ { s.seq with next := c } id (fun b => ⟨b.1, one⟩) h

theorem settleNext (k : Stable P Q) (h : P s) : P s.settleNext := by
  unfold State.settleNext
  split
  · split
    · exact k.setNext _ (Nat.zero_le _) h
    · split
      · exact h
      · split
        · exact k.setNext _ (Nat.le_refl 65536) h
        · next p f _ _ _ =>
          have asked := k.setNext (some (Context.outstanding p.number p.pattern f.entry p.nominal)) (Nat.le_refl 65536) h
          dsimp only
          split
          · exact asked
          · exact k.requestLookup _ asked
  · exact h

/-- Play begins with an outstanding strike in FOLDING, or ends at once in TAIL. -/
theorem startPlay (k : Stable P Q) (c : Context) (h : P s) : P (s.startPlay c) := by
  refine k.seq _ _ (fun sound => ⟨sound.1, fun folding => ?_⟩) id h
  cases strike : (Play.setUp (ahead c.entry s.cfg.bDist) c.pattern s.tracker.stretch).strike with
  | none => simp [strike] at folding
  | some k => simp [strike]

theorem truncate (k : Stable P Q) (h : P s) : P s.truncate := by
  unfold State.truncate
  split
  · exact k.abandonPanel _ h
  · exact k.abandonPanel _ h
  all_goals exact h

theorem contextFor_bounded (s : State) (p : Panel) (f : Feature) (b : s.seq.bounded) :
    Context.bounded (some (s.contextFor p f)) := by
  unfold State.contextFor
  split
  · next c next =>
    split
    · exact (congrArg Context.bounded next).mp b.2
    · exact Nat.le_refl 65536
  · exact Nat.le_refl 65536

/-- The panel becomes current without a play, in a state other than FOLDING. -/
theorem setCurrent (k : Stable P Q) (p : Panel) (f : Feature) (st : SeqState) (still : st ≠ .folding) (h : P s) :
    P { s with
        seq := { s.seq with current := some (s.contextFor p f), next := none, play := none, state := st } } :=
  k.seq _ { s.seq with current := some (s.contextFor p f), next := none, play := none, state := st }
    (fun sound => ⟨sound.1, fun folding => absurd folding still⟩)
    (fun b => ⟨contextFor_bounded s p f b, Nat.zero_le _⟩) h

theorem panelAtBlade (k : Stable P Q) (p : Panel) (f : Feature) (h : P s) : P (s.panelAtBlade p f) := by
  have truncated := k.truncate h
  unfold State.panelAtBlade
  refine k.settleNext ?_
  dsimp only
  split
  · exact k.condemn _ _ (k.setCurrent p f .runout (by decide) truncated)
  · split
    · have played := k.startPlay (s.truncate.contextFor p f) (k.setCurrent p f .tail (by decide) truncated)
      exact played
    · exact k.setCurrent p f .leadIn (by decide) truncated

theorem setClear (k : Stable P Q) (c : Option Pos) (h : P s) : P { s with seq := { s.seq with clearPos := c } } :=
  k.seq _ { s.seq with clearPos := c } id id h

theorem spliceAtBlade (k : Stable P Q) (entry : Pos) (h : P s) : P (s.spliceAtBlade entry) := by
  unfold State.spliceAtBlade
  dsimp only
  split
  · exact k.abandonPanel _ (k.setClear _ h)
  · exact k.abandonPanel _ (k.setClear _ h)
  · exact k.abandonPanel _ (k.setClear _ h)
  all_goals exact k.setClear _ h

theorem atBlade (k : Stable P Q) (f : Feature) (h : P s) : P (s.atBlade f) := by
  unfold State.atBlade
  split
  · split
    · exact k.panelAtBlade _ f h
    · exact k.spliceAtBlade _ h
  · exact h

/-! ### Insertions and placements -/

theorem askForPanel (k : Stable P Q) (p : Panel) (h : P s) : P (s.askForPanel p) := by
  unfold State.askForPanel
  dsimp only
  split <;> split
  · exact k.requestLookup _ (k.requestLookup _ h)
  · exact k.requestLookup _ h
  · exact k.requestLookup _ h
  · exact h

theorem setGuard (k : Stable P Q) (g : Option Pos) (h : P s) : P { s with tracker := { s.tracker with guard := g } } :=
  k.tracker _ { s.tracker with guard := g } rfl id (Tracker.waitsNoMore_refl _) h

theorem insertOrDiscard (k : Stable P Q) (f : Feature) (near : Q f.entry) (h : P s) : P (s.insertOrDiscard f) := by
  unfold State.insertOrDiscard
  split
  · exact k.latch _ h
  · split
    · next room =>
      have inserted := k.insert s f room near h
      dsimp only
      split
      · exact k.settleNext (k.askForPanel _ inserted)
      · exact k.setGuard _ inserted
    · exact h

theorem offerFeature (k : Stable P Q) (f : Feature) (near : Q f.entry) (h : P s) : P (s.offerFeature f) := by
  unfold State.offerFeature
  dsimp only
  split
  · exact k.insertOrDiscard f near h
  · exact k.setRef none (k.insertOrDiscard f near h)

theorem updateStretch (k : Stable P Q) (p : Pos) (h : P s) : P (s.updateStretch p) := by
  unfold State.updateStretch
  split
  · next m l _ =>
    have updated : P { s with tracker := { s.tracker with stretch := clamp 61440 69632 (stretchValue m l) } } := by
      have range : 61440 ≤ clamp 61440 69632 (stretchValue m l) ∧ clamp 61440 69632 (stretchValue m l) ≤ 69632 := by
        rw [clamp_eq_max_min (by decide)]
        omega
      exact k.tracker _ { s.tracker with stretch := _ } rfl (fun ⟨debt, misses, _⟩ => ⟨debt, misses, range⟩)
        (Tracker.waitsNoMore_refl _) h
    dsimp only
    split
    · exact k.flag _ updated
    · exact updated
  · exact h

theorem place (k : Stable P Q) (p : Panel) (entry : Pos) (claimed : Bool) (near : Q entry) (h : P s) :
    P (s.place p entry claimed) := by
  have offered := k.insertOrDiscard (panelFeature p entry) near h
  unfold State.place
  dsimp only
  refine k.setRef _ ?_
  cases claimed
  · exact offered
  · exact k.updateStretch entry offered

theorem setMisses (k : Stable P Q) (n : Nat) (few : n ≤ 255) (h : P s) : P { s with tracker := { s.tracker with misses := n } } :=
  k.tracker _ { s.tracker with misses := n } rfl (fun ⟨debt, _, stretch⟩ => ⟨debt, few, stretch⟩)
    (Tracker.waitsNoMore_refl _) h

theorem countMiss (k : Stable P Q) (h : P s) :
    P { s with tracker := { s.tracker with misses := min 255 (s.tracker.misses + 1) } } :=
  k.setMisses _ (min_le_left _ _) h

theorem claim (k : Stable P Q) (h : PendingHandoff) (mark : Pos) (near : Q mark) (hs : P s) : P (s.claim h mark) :=
  k.place _ mark true near (k.setMisses 0 (Nat.zero_le _) hs)

theorem synthesize (k : Stable P Q) (h : PendingHandoff) (near : Q h.arrival) (hs : P s) : P (s.synthesize h) := by
  have placed := k.flag .markMissed
    (k.place (s.newPanel h.number h.pattern (some h.nominal) h.cause false) h.arrival false near hs)
  have counted := k.countMiss placed
  unfold State.synthesize
  dsimp only
  split
  · exact k.latch _ counted
  · exact counted

theorem expireHandoff (k : Stable P Q) (h : P s) : P s.expireHandoff := by
  unfold State.expireHandoff
  split
  · next g rest waiting =>
    have taken := k.tracker _ { s.tracker with handoffs := rest } rfl id
      ⟨by rw [waiting]; exact List.suffix_cons _ _, List.suffix_rfl⟩ h
    exact k.synthesize g (k.atArrival s h g (by simp [waiting])) taken
  · exact h

theorem discardMark (k : Stable P Q) (h : P s) : P s.discardMark := by
  unfold State.discardMark
  split
  · next m rest waiting =>
    exact k.flag _ (k.tracker _ { s.tracker with marks := rest } rfl id
      ⟨List.suffix_rfl, by rw [waiting]; exact List.suffix_cons _ _⟩ h)
  · exact h

/-! ### Exits -/

theorem exitHeld (k : Stable P Q) (f : Feature) (h : P s) : P (s.exitHeld f) := by
  unfold State.exitHeld
  split
  · exact k.map _ _ (places_sublist List.eraseP_sublist) h
  · split
    · exact k.latch _ (k.keepPlaces { s.map with features := _ } (places_modifyFirst (g := fun g => { g with overdue := true }) _ (fun _ => rfl) _) h)
    · next room =>
      refine k.pushHandoff _ ?_ (k.map _ { s.map with features := _ } (places_sublist List.eraseP_sublist) h)
      simp_all [State.handoffRoom]

theorem takeHeld (k : Stable P Q) (n : Nat) (h : P s) : P (State.takeHeld n s) := by
  induction n generalizing s with
  | zero => exact h
  | succ n ih =>
    unfold State.takeHeld
    split
    · split
      · exact h
      · exact ih (k.exitHeld _ h)
    · exact h

theorem takeExits (k : Stable P Q) (h : P s) : P s.takeExits := k.takeHeld _ h

theorem drainOverdue (k : Stable P Q) (h : P s) : P s.drainOverdue := by
  unfold State.drainOverdue
  split
  · split
    · next room =>
      exact k.pushHandoff _ room (k.map _ { s.map with features := _ } (places_sublist List.eraseP_sublist) h)
    · exact h
  · exact h

theorem relast (k : Stable P Q) (wasLast : Bool) (h : P s) : P (State.relast wasLast s) := by
  unfold State.relast
  split
  · exact k.map _ _ (places_sublist List.filter_sublist) h
  · split
    · exact k.keepPlaces { s.map with gateOpen := false } rfl h
    · exact h

/-! ### The origin's splice -/

theorem giveBack_bounded (q : PlanQueue) (c : CreatedPanel) (b : q.bounded) : (q.giveBack c).bounded := by
  obtain ⟨short, counter⟩ := b
  refine ⟨?_, by rwa [(q.giveBack_same c).1]⟩
  unfold PlanQueue.giveBack
  split
  · split
    · next e rest entries =>
      rw [entries, List.length_cons] at short
      split
      · simpa using short
      · split
        · next room => simpa using room
        · simpa [entries] using short
    · simp
  · exact short

theorem spliceAtEntry (k : Stable P Q) (h : P s) : P s.spliceAtEntry := by
  unfold State.spliceAtEntry
  split
  · exact h
  · next c _ =>
    split
    · split
      · exact k.setCause _ _ (k.plan _ _ (giveBack_bounded _ c) h)
      · exact h
    · refine k.noticeOf _ _ (k.plan _ _ (fun b => ?_) h)
      split
      · exact giveBack_bounded _ c b
      · exact b

theorem takeEntry (k : Stable P Q) (h : P s) : P s.takeEntry := by
  unfold State.takeEntry
  split
  · exact k.spliceAtEntry (k.keepPlaces { s.map with features := _ } (places_modifyFirst _ Feature.place_markAtEntry _) h)
  · exact h

/-! ### Segments -/

theorem judge (k : Stable P Q) (g : Segment) (h : P s) : P (s.judge g) := by
  have short : s.dose.queue.length ≤ 64 → s.dose.queue.tail.length ≤ 64 := fun h => by
    rw [List.length_tail]; omega
  have sound : s.dosesSound → ∀ g ∈ s.dose.queue.tail, g.sound := fun h g hg => h g (List.mem_of_mem_tail hg)
  unfold State.judge
  dsimp only
  split
  · exact k.condemn _ _ (k.dose _ { s.dose with queue := s.dose.queue.tail, lastRejected := g.panel } short sound h)
  · exact k.dose _ { s.dose with queue := s.dose.queue.tail } short sound h

theorem judgeAll (k : Stable P Q) (n : Nat) (h : P s) : P (State.judgeAll n s) := by
  induction n generalizing s with
  | zero => exact h
  | succ n ih =>
    unfold State.judgeAll
    split
    · exact ih (k.judge _ h)
    · exact h

end Stable

end Sys2Proof.Machine
end

section
/-! SUPPORT. Every command keeps a property that the named updates keep, where the updates at the end of a command, and the resets, lead to
what is to be shown. -/

namespace Sys2Proof.Machine

/-- What a command leads to beside the updates of the shared operations: `P` holds while the command works, and `R` of the state it answers.
A field that a property does not look at takes its default. -/
structure Ends (P R : State → Prop) (Q : Pos → Prop := fun _ => True) : Type where
  stays : ∀ s, P s → R s := by exact fun _ h => h
  reset : ∀ s cause phase, phase ≠ .done → P s → R (s.stopArray.volatileReset cause phase)
  configGood : ∀ s words c, s.boot.phase = .read → readBlock s.boot.index words = some c → P s → R (s.configGood c) := by
    exact fun _ _ _ _ _ h => h
  forward : ∀ s n, P s → R (s.forward n) := by exact fun _ _ h => h
  speeds : ∀ old s, R s → R (State.afterSpeeds old s)
  handoffWaits : ∀ (s t : State) (h : PendingHandoff), P s → P t → Q h.arrival → s.tracker.marks = [] → t.tracker.marks = [] →
    t.tracker.handoffs = (if 4 ≤ s.tracker.handoffs.length then s.tracker.handoffs.tail else s.tracker.handoffs) →
    R { t with tracker := { t.tracker with handoffs := t.tracker.handoffs ++ [h] } } := by exact fun _ _ _ _ h _ _ _ _ => h
  markWaits : ∀ s t : State, P s → P t → s.tracker.handoffs = [] → t.tracker.handoffs = [] →
    t.tracker.marks = (if 4 ≤ s.tracker.marks.length then s.tracker.marks.tail else s.tracker.marks) →
    R { t with tracker := { t.tracker with marks := t.tracker.marks ++ [s.tracker.position] } } := by
      exact fun _ _ _ h _ _ _ => h

/-- A frame that is neither of the kinds processed outside DONE is routed in DONE alone (R30). -/
theorem State.done_of_routes {s : State} {f : RxFrame} (routed : s.routes f = true)
    (kind : f.payload.kind ≠ .beacon ∧ f.payload.kind ≠ .halt ∧ f.payload.kind ≠ .restart) : s.boot.phase = .done := by
  have processed : processes s.boot.phase f.payload.kind = true := by simp_all [State.routes]
  unfold processes at processed
  split at processed <;> simp_all

theorem State.expireHandoff_handoffs (s : State) : s.expireHandoff.tracker.handoffs = s.tracker.handoffs.tail := by
  unfold State.expireHandoff
  cases waiting : s.tracker.handoffs <;> simp [waiting]

theorem State.discardMark_marks (s : State) : s.discardMark.tracker.marks = s.tracker.marks.tail := by
  unfold State.discardMark
  cases waiting : s.tracker.marks <;> simp [waiting]

/-- A RESTART is refused or taken (R20). -/
theorem State.takeRestart_cases (s : State) :
    s.takeRestart = s.refuse .restart .badState ∨ s.takeRestart = s.startReset .restart .inReset := by
  unfold State.takeRestart
  split <;> (try split) <;> simp

/-! ### A sound Splice Unit and its rolls -/

theorem Splice.not_active_of_sideIn {u : Splice} (none : u.sideIn .active = none) (side : Side) :
    (u.roll side).state ≠ .active := by
  unfold Splice.sideIn at none
  split at none
  · cases none
  · next notA =>
    split at none
    · cases none
    · next notB => cases side <;> assumption

@[simp] theorem Splice.setRoll_same (u : Splice) (side : Side) (r : Roll) :
    (u.setRoll side r).state = u.state ∧ (u.setRoll side r).paste = u.paste ∧ (u.setRoll side r).cut = u.cut ∧
      (u.setRoll side r).counter = u.counter ∧ (u.setRoll side r).strobeTimer = u.strobeTimer ∧
      (u.setRoll side r).vNew = u.vNew := by
  cases side <;> simp

/-- A record that is not EXPIRING, and not ACTIVE beside another, may be set. -/
theorem Splice.setRoll_sound {u : Splice} (side : Side) {r : Roll} (expiring : r.state ≠ .expiring)
    (alone : r.state = .active → (u.roll side.other).state ≠ .active) (h : u.sound) : (u.setRoll side r).sound := by
  obtain ⟨-, -, inSplice, strobes⟩ := h
  refine ⟨fun ⟨a, b⟩ => ?_, fun ⟨a, b⟩ => ?_, fun e => ?_, by simpa using strobes⟩ <;> cases side
  · exact alone a b
  · exact alone b a
  · exact expiring a
  · exact expiring b
  · exact inSplice (.inr (e.resolve_left expiring))
  · exact inSplice (.inl (e.resolve_right expiring))

theorem Roll.count_state (r : Roll) (n : Nat) : (r.count n).state = r.state := by
  unfold Roll.count
  split <;> rfl

/-- PASTING is entered from MATCHING alone: the ACTIVE roll becomes EXPIRING and the other one ACTIVE (R193). -/
theorem Splice.startPaste_sound {u : Splice} (matching : u.state = .matching) (h : u.sound) : u.startPaste.sound := by
  obtain ⟨one, -, inSplice, -, cutting⟩ := h
  have none : ∀ side, (u.roll side).state ≠ .expiring := fun side e => by
    have := inSplice (by cases side <;> simp_all)
    simp [matching] at this
  have cut : u.changeOver.cut = true → False := fun c => by
    have : u.cut = true := by unfold Splice.changeOver at c; split at c <;> simpa using c
    simp [matching] at cutting
    simp [cutting] at this
  refine ⟨?_, ?_, fun _ => .inl rfl, fun _ => rfl, fun c => (cut c).elim⟩ <;> simp only [Splice.startPaste, Splice.changeOver]
  · split
    · next side _ => cases side <;> simp [Side.other]
    · exact one
  · split
    · next side _ => cases side <;> simp [Side.other]
    · exact fun ⟨a, _⟩ => none .a a

/-- The end of CUTTING empties the EXPIRING record (R194). -/
theorem Splice.endCut_sound {u : Splice} (cutting : u.state = .cutting) (h : u.sound) :
    Splice.sound { u.dropExpiring with state := .idle, cut := false, strobeTimer := none } := by
  obtain ⟨one, notBoth, -, pasting, -⟩ := h
  have paste : u.dropExpiring.paste = u.paste := by unfold Splice.dropExpiring; split <;> simp
  have notActive : ¬ (u.dropExpiring.rollA.state = .active ∧ u.dropExpiring.rollB.state = .active) := by
    unfold Splice.dropExpiring
    split
    · next side _ => cases side <;> simp [Roll.none]
    · exact one
  have notExpiring : ¬ (u.dropExpiring.rollA.state = .expiring ∨ u.dropExpiring.rollB.state = .expiring) := by
    unfold Splice.dropExpiring Splice.sideIn
    by_cases a : u.rollA.state = .expiring <;> by_cases b : u.rollB.state = .expiring <;> simp_all [Roll.none]
  refine ⟨notActive, fun both => notExpiring (.inl both.1), fun e => (notExpiring e).elim, fun p => ?_, nofun⟩
  rw [paste] at p
  simp [cutting, p] at pasting

namespace Stable

variable {P R : State → Prop} {Q : Pos → Prop} {s : State}

/-! ### Frames -/

theorem heard (k : Stable P Q) (h : P s) : P s.heard := k.link _ { s.link with line := .waitGap } id h

theorem setLine (k : Stable P Q) (l : LineControl) (state : l.state = s.line.state) (vCmd : l.vCmd = s.line.vCmd)
    (ramp : l.rampTimer = s.line.rampTimer) (qIn : l.qIn = s.line.qIn) (h : P s) : P { s with line := l } :=
  k.line _ l state vCmd ramp (fun b => by rwa [LineControl.bounded, qIn]) h

theorem takeRun (k : Stable P Q) (setpoint : Nat) (h : P s) : P (s.takeRun setpoint) := by
  unfold State.takeRun
  split
  · split
    · exact k.enterLine _ (k.setLine { s.line with setpoint := _ } rfl rfl rfl rfl h)
    · exact k.refuse _ _ h
  all_goals exact k.refuse _ _ h

theorem takeStop (k : Stable P Q) (h : P s) : P s.takeStop := by
  unfold State.takeStop
  split
  · exact k.passOn (k.enterLine _ h)
  all_goals exact h

theorem clearTrack (k : Stable P Q) (h : P s) : P s.clearTrack := by
  have tracked := k.tracker s { s.tracker with misses := 0, debt := 0, ref := s.tracker.ref.map fun r => { r with rejected := true } }
    rfl (fun ⟨_, _, stretch⟩ => ⟨Nat.zero_le _, Nat.zero_le _, stretch⟩) (Tracker.waitsNoMore_refl _) h
  have listed := k.keepPlaces
    { s.map with features := s.map.features.map fun f => f.mapPanel fun p => p.withCause .trackLost }
    (by rw [places, List.map_map]
        exact List.map_congr_left fun f _ => Feature.place_mapPanel (Panel.withCause_number _) f) tracked
  refine k.plan _ _ (fun b => ?_) listed
  split
  · split
    · simpa [PlanQueue.bounded] using b
    · exact b
  · exact b

theorem freeSplice (k : Stable P Q) (h : P s) : P s.freeSplice := by
  unfold State.freeSplice
  split
  · next inhibited => exact k.arm (by simp [inhibited]) h
  all_goals exact h

theorem takeClear (k : Stable P Q) (h : P s) : P s.takeClear := by
  have cleared := k.events s (s.events.clearWhere s.conditionGone) h
  unfold State.takeClear
  dsimp only
  refine k.freeSplice ?_
  split <;> split
  · exact k.enterLine _ (k.clearTrack cleared)
  · exact k.clearTrack cleared
  · exact k.enterLine _ cleared
  · exact cleared

theorem setPeer (k : Stable P Q) (i : BitVec 4) (p : Peer) (h : P s) : P { s with line := s.line.setPeer i p } :=
  k.setLine (s.line.setPeer i p) rfl rfl rfl rfl h

theorem takeBeacon (k : Stable P Q) (sender : BitVec 4) (ceiling qOut : Nat) (h : P s) : P (s.takeBeacon sender ceiling qOut) := by
  unfold State.takeBeacon
  split
  · exact k.afterSpeeds _ (k.retakeQIn (k.relast _ (k.setPeer _ _ h)))
  · exact h

theorem takeRelease (k : Stable P Q) (released : Byte) (h : P s) : P (s.takeRelease released) := by
  unfold State.takeRelease
  dsimp only
  split
  · exact k.refuse _ _ h
  · split
    · exact k.refuse _ _ h
    · split
      · exact k.refuse _ _ h
      all_goals exact k.relast _ (k.setPeer _ _ h)

theorem takeReject (k : Stable P Q) (number : Nat) (code : Byte) (h : P s) : P (s.takeReject number code) := by
  unfold State.takeReject
  split
  · exact h
  · next c _ =>
    split
    · exact k.setCause _ _ h
    · split
      · have arrivals := modifyFirst_map (fun h => decide (h.number = number)) (fun h => h.withCause c) PendingHandoff.arrival
          (fun h _ => by unfold PendingHandoff.withCause; split <;> rfl) s.tracker.handoffs
        exact k.tracker _ { s.tracker with handoffs := _ } rfl id ⟨arrivals ▸ List.suffix_rfl, List.suffix_rfl⟩ h
      · exact k.rejectNotice _ _ h

theorem takePlan (k : Stable P Q) (pattern count : Nat) (h : P s) : P (s.takePlan pattern count) := by
  unfold State.takePlan
  split
  · exact k.refuse _ _ h
  · split
    · exact k.refuse _ _ h
    · split
      · exact k.refuse _ _ h
      · next room => exact k.plan _ { s.plan with entries := _ } (fun b => ⟨by simp; omega, b.2⟩) h

theorem setBuffer (k : Stable P Q) (b : Option Buffer) (h : P s) : P { s with store := { s.store with buffer := b } } :=
  k.store _ _ (.buffer b) h

theorem failLoad (k : Stable P Q) (h : P s) : P s.failLoad := k.flag _ (k.setBuffer none h)

theorem takePatOpen (k : Stable P Q) (pattern nominal leadIn dose count : Nat) (h : P s) :
    P (s.takePatOpen pattern nominal leadIn dose count) := by
  unfold State.takePatOpen
  split
  · exact k.refuse _ _ h
  · dsimp only
    split
    · exact k.setBuffer _ (k.failLoad h)
    · exact k.setBuffer _ h

theorem takePatStep (k : Stable P Q) (sequence : Nat) (entries : List RawEntry) (h : P s) : P (s.takePatStep sequence entries) := by
  unfold State.takePatStep
  split
  · exact k.flag _ h
  · split
    · exact k.failLoad h
    · split
      · exact k.failLoad h
      · exact k.setBuffer _ h

theorem takePatClose (k : Stable P Q) (pattern count : Nat) (done : s.boot.phase = .done) (h : P s) :
    P (s.takePatClose pattern count) := by
  unfold State.takePatClose
  split
  · exact k.refuse _ _ h
  · next b _ =>
    split
    · exact k.refuse _ _ (k.setBuffer none h)
    · next passes => exact k.store _ _ (.reserve b pattern count passes done) h

theorem takePatErase (k : Stable P Q) (pattern : Nat) (done : s.boot.phase = .done) (h : P s) : P (s.takePatErase pattern) := by
  unfold State.takePatErase
  split
  · exact k.refuse _ _ h
  · split
    · exact k.refuse _ _ h
    · next unprotected =>
      split
      · exact k.refuse _ _ h
      · next i valid => exact k.store _ _ (.retire i pattern (by omega) valid done) h

theorem takeHandoff (k : Stable P Q) (e : Ends P R Q) (sender : BitVec 4) (h : PendingHandoff) (near : Q h.arrival) (hs : P s) :
    R (s.takeHandoff sender h) := by
  unfold State.takeHandoff
  split
  · unfold State.pairHandoff
    split
    · split
      · next m rest waiting =>
        refine e.stays _ (k.claim h m (k.atMark s hs m (by simp [waiting])) ?_)
        exact k.tracker _ { s.tracker with marks := rest } rfl id ⟨List.suffix_rfl, by rw [waiting]; exact List.suffix_cons _ _⟩ hs
      · next none =>
        dsimp only
        split
        · next full =>
          refine e.handoffWaits s _ h hs (k.expireHandoff hs) near none (by simpa using none) ?_
          rw [if_pos full]
          exact s.expireHandoff_handoffs
        · next room => exact e.handoffWaits s s h hs hs near none none (if_neg room).symm
    · exact e.stays _ (k.offerFeature _ near hs)
  · exact e.stays _ hs

theorem setRoll (k : Stable P Q) (side : Side) {r : Roll} (expiring : r.state ≠ .expiring)
    (alone : r.state = .active → (s.splice.roll side.other).state ≠ .active) (h : P s) :
    P { s with splice := s.splice.setRoll side r } :=
  k.splice _ _ (Splice.setRoll_sound side expiring alone) (by simp) h

theorem takeRoll (k : Stable P Q) (position rollId length : Nat) (h : P s) : P (s.takeRoll position rollId length) := by
  unfold State.takeRoll
  split
  · exact k.refuse _ _ h
  · split
    · exact k.refuse _ _ h
    · next side _ =>
      split
      · exact k.refuse _ _ h
      · split
        · exact k.refuse _ _ h
        · next ready =>
          split
          · next noActive =>
            exact k.armTest (k.setRoll side (by simp [announced]) (fun _ => Splice.not_active_of_sideIn noActive side.other) h)
          · exact k.tryMatching (k.setRoll side (by simp [announced]) (by simp [announced]) h)

/-! ### Commands of the line and of the web -/

theorem takeRestart (k : Stable P Q) (e : Ends P R Q) (h : P s) : R s.takeRestart := by
  rcases s.takeRestart_cases with refused | taken
  · exact refused ▸ e.stays _ (k.refuse _ _ h)
  · exact taken ▸ e.reset s _ _ nofun h

theorem frameSent (k : Stable P Q) (h : P s) : P (s.after .frameSent) := by
  change P (match s.link.line with
    | .sending p _ => _
    | .waitGap | .contention _ | .receiving => s)
  split
  · next p id _ =>
    have released : P { s with link := { s.link.release p with line := .waitGap, mismatches := 0 } } := by
      refine k.link _ _ (fun b => ?_) h
      cases p
      · exact b
      · exact b
      · exact ⟨by simpa [Link.release] using Nat.le_succ_of_le b.1, b.2⟩
      · exact ⟨b.1, by simpa [Link.release] using Nat.le_succ_of_le b.2⟩
    cases p
    · exact released
    · exact released
    · exact k.drainOverdue released
    · exact released
  all_goals exact h

end Stable

end Sys2Proof.Machine
end

section
/-! SUPPORT. Every command keeps a property that the named updates keep. -/

namespace Sys2Proof.Machine

/-- A play that is outstanding in FOLDING is what a strike leaves (R125, R146). -/
theorem Sequencer.sound_of_playing {q : Sequencer} {p : Play} (stroke : q.bladeStrobe = true ↔ q.strokeTimer ≠ none)
    (play : q.play = some p)
    (state : q.state = match p.strike with
      | some _ => .folding
      | none => .tail) : q.sound := by
  refine ⟨stroke, fun folding => ?_⟩
  cases strike : p.strike with
  | none => simp [folding, strike] at state
  | some k => simp [play, strike]

theorem Zone.sound_congr {z y : Zone} {st : LineState} (cfg : y.cfg = z.cfg) (duty : y.duty = z.duty)
    (pending : y.pendingDuty = z.pendingDuty) (integrator : y.integrator = z.integrator) (faulted : y.faulted = z.faulted)
    (active : y.active = z.active) (inBand : y.inBand = z.inBand) (h : z.sound st) : y.sound st := by
  unfold Zone.sound
  rw [cfg, duty, pending, integrator, faulted, active, inBand]
  exact h

/-- A credit of 10 keeps a dose a number of ticks, up to its end value (R174). -/
theorem State.credit_sound (s : State) (g : Segment) (h : g.sound) : (s.credit g).sound := by
  unfold State.credit
  split
  · show (if 65530 ≤ g.dose then 65535 else g.dose + 10) = 65535 ∨ _
    unfold Segment.sound at *
    dsimp only
    split <;> omega
  · exact h

theorem State.newSegment_sound (s : State) (close : Pos) : (s.newSegment close).sound := by
  unfold State.newSegment
  split <;> exact .inr ⟨rfl, Nat.zero_le _⟩

/-! ### A zone's sample (R157 to R165) -/

/-- What a sample's control and its in-band test need of the zone. -/
def Zone.inRange (z : Zone) : Prop :=
  z.duty ≤ z.cfg.period ∧ z.pendingDuty.getD 0 ≤ z.cfg.period ∧ -((z.cfg.period : Int) * 256) ≤ z.integrator ∧
    z.integrator ≤ (z.cfg.period : Int) * 256 ∧ (z.faulted = true → z.duty = 0 ∧ z.pendingDuty = none ∧ z.active = false)

theorem Zone.sound_of_inRange {z : Zone} {st : LineState} (range : z.inRange)
    (band : z.inBand = true → z.faulted = false ∧ (st = .run ∨ st = .stopping)) : z.sound st := by
  obtain ⟨duty, pending, low, high, faulted⟩ := range
  refine ⟨duty, pending, low, high, fun f => ?_, fun b => (band b).2⟩
  obtain ⟨d, p, a⟩ := faulted f
  refine ⟨d, p, a, ?_⟩
  by_contra b
  simp [f] at band
  exact b band

theorem Zone.inRange_of_sound {z : Zone} {st : LineState} (h : z.sound st) : z.inRange := by
  obtain ⟨duty, pending, low, high, faulted, -⟩ := h
  exact ⟨duty, pending, low, high, fun f => ⟨(faulted f).1, (faulted f).2.1, (faulted f).2.2.1⟩⟩

theorem clampInt_bounds {a b : Int} (le : a ≤ b) (v : Int) : a ≤ clampInt a b v ∧ clampInt a b v ≤ b := by
  rw [clampInt_eq_max_min le]
  omega

theorem Zone.dutyFor_le (z : Zone) (e : Int) : z.dutyFor e ≤ z.cfg.period := by
  have := (clampInt_bounds (Int.natCast_nonneg z.cfg.period) (((z.cfg.kp : Int) * e + z.integrator) / 256)).2
  unfold Zone.dutyFor
  omega

theorem Zone.control_inRange {z : Zone} (temp : Nat) (good : z.faulted = false) (range : z.inRange) : (z.control temp).inRange := by
  obtain ⟨duty, -, low, high, -⟩ := range
  have bounds : -((z.cfg.period : Int) * 256) ≤ z.integrate (z.error temp) ∧ z.integrate (z.error temp) ≤ (z.cfg.period : Int) * 256 := by
    unfold Zone.integrate
    split
    · exact ⟨low, high⟩
    · exact clampInt_bounds (by omega) _
  exact ⟨duty, z.dutyFor_le _, bounds.1, bounds.2, fun f => by simp [Zone.control, good] at f⟩

theorem Zone.fault_inRange (z : Zone) : z.fault.inRange := by
  refine ⟨Nat.zero_le _, Nat.zero_le _, ?_, ?_, fun _ => ⟨rfl, rfl, rfl⟩⟩ <;> simp only [Zone.fault] <;> omega

theorem Zone.takeBad_inRange {z : Zone} (range : z.inRange) : z.takeBad.inRange := by
  unfold Zone.takeBad
  split
  · exact range
  · split
    · exact Zone.fault_inRange _
    · exact range

theorem Zone.takeGood_inRange {z : Zone} (temp : Nat) (range : z.inRange) : (z.takeGood temp).inRange := by
  obtain ⟨duty, pending, low, high, faulted⟩ := range
  unfold Zone.takeGood
  split
  · next f =>
    split
    · exact Zone.control_inRange temp rfl ⟨duty, pending, low, high, nofun⟩
    · exact ⟨duty, pending, low, high, faulted⟩
  · next f => exact Zone.control_inRange temp (by simpa using f) ⟨duty, pending, low, high, faulted⟩

theorem Zone.sample_sound {z : Zone} {st : LineState} (raw : Nat) (h : z.sound st) : (z.sample st raw).sound st := by
  have range : (if badSample raw then Zone.takeBad { z with setpointInUse := z.cfg.setpointFor st }
      else Zone.takeGood { z with setpointInUse := z.cfg.setpointFor st } (temperatureOf raw)).inRange := by
    split
    · exact Zone.takeBad_inRange (Zone.inRange_of_sound h)
    · exact Zone.takeGood_inRange _ (Zone.inRange_of_sound h)
  refine Zone.sound_of_inRange range fun band => ?_
  have tested : Zone.bandTest (if badSample raw then Zone.takeBad { z with setpointInUse := z.cfg.setpointFor st }
      else Zone.takeGood { z with setpointInUse := z.cfg.setpointFor st } (temperatureOf raw)) st = true := band
  simp only [Zone.bandTest, Bool.and_eq_true, Bool.not_eq_true'] at tested
  refine ⟨tested.1.1, ?_⟩
  have heats := tested.1.2
  cases st <;> simp [LineState.heats] at heats ⊢

theorem Zone.startPeriod_sound {z : Zone} {st : LineState} (h : z.sound st) : z.startPeriod.sound st := by
  obtain ⟨duty, pending, low, high, faulted, band⟩ := h
  refine ⟨?_, Nat.zero_le _, low, high, fun f => ?_, band⟩
  · show z.pendingDuty.getD z.duty ≤ z.cfg.period
    cases p : z.pendingDuty with
    | none => exact duty
    | some d => simpa [p] using pending
  · obtain ⟨d, p, a, b⟩ := faulted f
    simp [Zone.startPeriod, d, p, b]

theorem Zone.endActive_sound {z : Zone} {st : LineState} (h : z.sound st) : Zone.sound { z with active := false } st := by
  obtain ⟨duty, pending, low, high, faulted, band⟩ := h
  exact ⟨duty, pending, low, high, fun f => ⟨(faulted f).1, (faulted f).2.1, rfl, (faulted f).2.2.2⟩, band⟩

namespace Stable

variable {P R : State → Prop} {Q : Pos → Prop} {s : State}

/-! ### Steam and dose -/

theorem setZone (k : Stable P Q) (i : Nat) (z y : Zone) (zone : s.steam.zones[i]? = some z)
    (sound : z.sound s.line.state → y.sound s.line.state) (h : P s) : P (s.setZone i y) := by
  refine k.steam _ _ (fun zones x mem => ?_) h
  rcases List.mem_or_eq_of_mem_set mem with old | rfl
  · exact zones x old
  · exact sound (zones z (List.mem_of_getElem? zone))

theorem takeSample (k : Stable P Q) (i raw : Nat) (z : Zone) (zone : s.steam.zones[i]? = some z) (h : P s) :
    P (s.takeSample i raw z) := by
  have converted := k.steam s { s.steam with converting := s.steam.converting.tail } id h
  have sampled := k.setZone (s := { s with steam := { s.steam with converting := s.steam.converting.tail } }) i z (z.sample s.line.state raw) zone (Zone.sample_sound raw) converted
  unfold State.takeSample
  dsimp only
  split
  · exact k.flag _ sampled
  · exact sampled

theorem makeSegment (k : Stable P Q) (h : P s) : P s.makeSegment := by
  refine k.dose _ _ (fun short => ?_) (fun sound g mem => ?_) (k.judgeAll _ h)
  · split
    · next room => simpa using room
    · exact short
  · dsimp only at mem
    split at mem
    · rcases List.mem_append.1 mem with old | new
      · exact sound g old
      · exact List.mem_singleton.1 new ▸ State.newSegment_sound _ _
    · exact sound g mem

theorem creditAll (k : Stable P Q) (h : P s) : P { s with dose := { s.dose with queue := s.dose.queue.map s.credit } } := by
  refine k.dose _ { s.dose with queue := _ } (by simp) (fun sound g mem => ?_) h
  obtain ⟨old, oldMem, rfl⟩ := List.mem_map.1 mem
  exact s.credit_sound old (sound old oldMem)

/-! ### The Web Map's lookups and exits -/

theorem settle_bounded (number nominal : Nat) (c : Option Context) (b : Context.bounded c) :
    Context.bounded (c.map fun c => c.settle number nominal) := by
  cases c with
  | none => exact b
  | some c =>
    simp only [Context.bounded, Option.map_some, Context.settle]
    split <;> exact b

theorem settleContexts (k : Stable P Q) (number nominal : Nat) (h : P s) :
    P { s with
        seq :=
          { s.seq with
            current := s.seq.current.map fun c => c.settle number nominal
            next := s.seq.next.map fun c => c.settle number nominal } } :=
  k.seq _ { s.seq with current := _, next := _ } id
    (fun b => ⟨settle_bounded number nominal _ b.1, settle_bounded number nominal _ b.2⟩) h

theorem fillSegments (k : Stable P Q) (number dose : Nat) (h : P s) :
    P { s with dose := { s.dose with queue := s.dose.queue.map fun g => g.fill number dose } } := by
  refine k.dose _ { s.dose with queue := _ } (fun short => by simpa using short) (fun sound g mem => ?_) h
  obtain ⟨old, oldMem, rfl⟩ := List.mem_map.1 mem
  unfold Segment.fill
  split <;> exact sound old oldMem

theorem fillPending (k : Stable P Q) (number nominal dose : Nat) (h : P s) : P (s.fillPending number nominal dose) := by
  have listed := k.keepPlaces { s.map with features := _ }
    (places_modifyFirst (fun f => f.isPanel number) (Feature.place_mapPanel (g := fun p => p.fill nominal dose) fun _ => rfl) _) h
  exact k.fillSegments number dose (k.settleContexts number nominal (k.setRef (s.tracker.ref.map fun r => r.settle number nominal) listed))

theorem releaseBoth (k : Stable P Q) (judgeFirst : Bool) (h : P s) : P (State.releaseBoth judgeFirst s) := by
  unfold State.releaseBoth
  split
  · exact k.takeExits (k.judgeAll _ h)
  · exact k.judgeAll _ (k.takeExits h)

theorem deliverToMap (k : Stable P Q) (number : Nat) (found : Option Pattern) (h : P s) : P (s.deliverToMap number found) := by
  have filled := k.fillPending number (s.nominalFrom found) (s.doseFrom found) h
  unfold State.deliverToMap
  dsimp only
  split <;> split
  · exact k.releaseBoth _ (k.free _ _ (k.flag _ filled))
  · exact k.releaseBoth _ (k.flag _ filled)
  · exact k.releaseBoth _ (k.free _ _ filled)
  · exact k.releaseBoth _ filled

theorem fillOutput (k : Stable P Q) (requester : Requester) (number : Nat) (found : Option Pattern) (h : P s) :
    P (s.fillOutput requester number found) := by
  unfold State.fillOutput
  split
  · exact k.keepPlaces { s.map with features := _ }
      (places_modifyFirst _ (Feature.place_mapPanel (Panel.fillOutput_number found)) _) h
  all_goals exact h

theorem deliver_bounded (c : Context) (found : Option Pattern) : Context.bounded (some (c.deliver found)) := by
  cases found with
  | none => exact Nat.le_refl 65536
  | some p =>
    show 65536 * p.outputLength / p.nominal ≤ 65536
    exact Nat.div_le_of_le_mul (by rw [Nat.mul_comm]; exact Nat.mul_le_mul_right _ (Nat.sub_le _ _))

theorem deliverCurrent (k : Stable P Q) (c : Context) (found : Option Pattern) (h : P s) : P (s.deliverCurrent c found) := by
  have taken := k.seq s { s.seq with current := some (c.deliver found) } id (fun b => ⟨deliver_bounded c found, b.2⟩) h
  unfold State.deliverCurrent
  dsimp only
  split
  · exact k.startPlay _ taken
  all_goals exact taken

theorem deliverNext (k : Stable P Q) (number : Nat) (found : Option Pattern) (h : P s) : P (s.deliverNext number found) := by
  unfold State.deliverNext
  split
  · split
    · exact k.setNext _ (deliver_bounded _ found) h
    · exact h
  · exact h

theorem deliverCopy (k : Stable P Q) (requester : Requester) (number : Nat) (found : Option Pattern) (h : P s) :
    P (s.deliverCopy requester number found) := by
  have filled := k.fillOutput requester number found h
  have flagged := k.flag .patternMissing filled
  unfold State.deliverCopy
  dsimp only
  refine k.takeExits ?_
  split <;> split
  · exact k.deliverCurrent _ found flagged
  · exact k.deliverCurrent _ found filled
  · exact k.deliverNext _ found flagged
  · exact k.deliverNext _ found filled

theorem markReached (k : Stable P Q) (h : P s) : P s.markReached :=
  k.keepPlaces { s.map with features := _ } (places_modifyFirst (g := fun f => { f with reached := true }) _ (fun _ => rfl) _) h

theorem featureExit (k : Stable P Q) (f : Feature) (h : P s) : P (s.featureExit f) := by
  unfold State.featureExit
  split
  · exact k.atBlade f (k.takeExits h)
  · split
    · unfold State.spliceExit
      split
      · exact k.takeExits (k.atBlade f (k.free _ _ h))
      · exact k.atBlade f (k.takeExits (k.free _ _ h))
    · exact k.atBlade f (k.takeExits h)

/-! ### The blade -/

theorem strike (k : Stable P Q) (p : Play) (strike : Strike) (h : P s) : P (s.strike p strike) :=
  k.seq _ _ (fun _ => Sequencer.sound_of_playing (by simp) rfl rfl) id h

theorem strikeReached (k : Stable P Q) (p : Play) (strike : Strike) (h : P s) : P (s.strikeReached p strike) := by
  unfold State.strikeReached
  split
  · split
    · exact k.strike p strike h
    · exact k.abandonPanel _ (k.flag _ h)
  all_goals exact k.abandonPanel _ h

/-! ### The splice -/

theorem setSpliceState (k : Stable P Q) (st : SpliceState) (quiet : s.splice.state ≠ .pasting ∧ s.splice.state ≠ .cutting)
    (h : P s) : P { s with splice := { s.splice with state := st } } :=
  k.splice _ { s.splice with state := st } (Splice.sound_of_quiet rfl rfl rfl rfl quiet) id h

theorem rollOut (k : Stable P Q) (side : Side) (h : P s) : P (s.rollOut side) := by
  have emptied := k.setRoll side (r := Roll.none) (by simp [Roll.none]) (by simp [Roll.none]) h
  unfold State.rollOut
  dsimp only
  refine k.latch _ ?_
  split
  · next idle => exact k.setSpliceState _ (by simp_all) emptied
  · next armed => exact k.setSpliceState _ (by simp_all) emptied
  · next inhibited => exact k.setSpliceState _ (by simp_all) emptied
  · next matching => exact k.leaveMatching _ matching emptied
  all_goals exact emptied

theorem completeMatch (k : Stable P Q) (matching : s.splice.state = .matching) (h : P s) : P s.completeMatch := by
  have pasting := k.splice s s.splice.startPaste (Splice.startPaste_sound matching) (countsFromOne_nextNumber _) h
  have offered := k.offerFeature (spliceFeature s.splice.counter (ahead s.tracker.position s.cfg.pDist)) (k.atSplice s h)
    (k.setVNew s.localSpeed pasting)
  unfold State.completeMatch
  dsimp only
  split
  · exact k.takeEntry offered
  · exact offered

theorem endCut (k : Stable P Q) (cutting : s.splice.state = .cutting) (h : P s) : P s.endCut := by
  refine k.armTest (k.splice _ _ (Splice.endCut_sound (by simpa using cutting)) ?_ (k.setVNew 0 h))
  unfold Splice.dropExpiring
  split <;> simp

/-! ### Start-up -/

theorem configBad (k : Stable P Q) (early : s.boot.phase = .inReset ∨ s.boot.phase = .read) (h : P s) : P s.configBad := by
  have latched := k.latch .configBad h
  have stopped := k.boot _ _ (.stops (s := s.latch .configBad) (by simpa using early)) latched
  exact k.enterLine .held (k.haltOrigin (s.latch .configBad).ownIndex stopped)

theorem scanComplete (k : Stable P Q) (scan : s.boot.phase = .scan) (h : P s) : P s.scanComplete := k.boot _ _ (.listens scan) h

end Stable

end Sys2Proof.Machine
end

section
/-! SUPPORT. What a frame command can do; every command, and so every step, keeps a property that the named updates keep. -/

namespace Sys2Proof.Machine

/-! ### A frame and its owner -/

/-- The owning block's part in a frame that has been routed to it (R12). -/
def State.takes (s : State) (f : RxFrame) : State :=
  match f.payload with
  | .halt _ origin => s.haltLine origin
  | .beacon _ ceiling _ qOut _ _ _ _ _ => s.takeBeacon f.sender ceiling.toNat qOut.toNat
  | .handoffPanel number pattern nominal cause =>
    s.takeHandoff f.sender
      { number := number.toNat, pattern := pattern.toNat, nominal := nominal.toNat, cause := causeOfCode cause
        arrival := s.tracker.position }
  | .handoffSplice number =>
    if s.acceptsFrom f.sender then s.offerFeature (spliceFeature number.toNat s.tracker.position) else s
  | .handoffReject number cause => if s.acceptsFrom f.sender then s.takeReject number.toNat cause else s
  | .run _ setpoint => s.takeRun setpoint.toNat
  | .stop _ => s.takeStop
  | .clear _ => s.takeClear
  | .release _ released => s.takeRelease released
  | .plan _ pattern count => s.takePlan pattern.toNat count.toNat
  | .patOpen _ pattern nominal leadIn dose count =>
    s.takePatOpen pattern.toNat nominal.toNat leadIn.toNat dose.toNat count.toNat
  | .patStep _ sequence entries => s.takePatStep sequence.toNat entries
  | .patClose _ pattern count => s.takePatClose pattern.toNat count.toNat
  | .patErase _ pattern => s.takePatErase pattern.toNat
  | .roll _ position rollId length => s.takeRoll position.toNat rollId.toNat length.toNat
  | .reportReq _ page => if 11 < page.toNat then s.refuse .reportReq .outOfRange else s.offerReports (s.reportParts page.toNat)
  | .report .. => s
  | .restart _ => s.takeRestart

/-- What ends a reception of a frame that `takes` gives the owner's part in: nothing is being received; the frame is dropped; it latches
DUPLICATE_INDEX; or it reaches its owner. -/
theorem State.receive_cases (s : State) (bytes : List Byte) {owner : RxFrame → Option (State → State)}
    (owned : ∀ f act, owner f = some act → act = fun t => t.takes f) :
    s.receive bytes owner = s ∨ s.receive bytes owner = s.heard ∨ s.receive bytes owner = s.heard.latchDuplicate ∨
      ∃ f, s.hears bytes f ∧ s.receive bytes owner = s.heard.takes f := by
  unfold State.receive
  split
  · next receiving =>
    dsimp only
    split
    · exact .inr (.inl rfl)
    · next f accepted =>
      split
      · exact .inr (.inl rfl)
      · next act mine =>
        split
        · exact .inr (.inr (.inl rfl))
        · split
          · next routed => exact .inr (.inr (.inr ⟨f, ⟨receiving, accepted, routed⟩, by rw [owned f act mine]; rfl⟩))
          · exact .inr (.inl rfl)
  all_goals exact .inl rfl

/-- Everything a frame command can do. -/
theorem after_frame_cases {c : List Byte → Instr} (mem : c ∈ frameCommands) (s : State) (bytes : List Byte) :
    s.after (c bytes) = s ∨ s.after (c bytes) = s.heard ∨ s.after (c bytes) = s.heard.latchDuplicate ∨
      ∃ f, s.hears bytes f ∧ s.after (c bytes) = s.heard.takes f := by
  simp only [frameCommands, List.mem_cons, List.not_mem_nil, or_false] at mem
  obtain rfl | rfl | rfl | rfl | rfl | rfl | rfl | rfl | rfl | rfl | rfl | rfl | rfl | rfl | rfl | rfl | rfl | rfl := mem
  all_goals
    refine s.receive_cases bytes fun f act owned => ?_
    obtain ⟨sender, payload⟩ := f
    cases payload <;> cases owned
    rfl

namespace Stable

variable {P R : State → Prop} {Q : Pos → Prop} {s : State}

theorem takes (k : Stable P Q) (e : Ends P R Q) (f : RxFrame) (routed : s.routes f = true) (h : P s) : R (s.takes f) := by
  obtain ⟨sender, payload⟩ := f
  have done := State.done_of_routes routed
  cases payload with
  | halt cause origin => exact e.stays _ (k.haltLine origin h)
  | beacon => exact e.stays _ (k.takeBeacon _ _ _ h)
  | handoffPanel => exact k.takeHandoff e _ _ (k.atPosition s h) h
  | handoffSplice number =>
    show R (if _ then _ else _)
    split
    · exact e.stays _ (k.offerFeature _ (k.atPosition s h) h)
    · exact e.stays _ h
  | handoffReject number cause =>
    show R (if _ then _ else _)
    split
    · exact e.stays _ (k.takeReject _ _ h)
    · exact e.stays _ h
  | run => exact e.stays _ (k.takeRun _ h)
  | stop => exact e.stays _ (k.takeStop h)
  | clear => exact e.stays _ (k.takeClear h)
  | release => exact e.stays _ (k.takeRelease _ h)
  | plan => exact e.stays _ (k.takePlan _ _ h)
  | patOpen => exact e.stays _ (k.takePatOpen _ _ _ _ _ h)
  | patStep => exact e.stays _ (k.takePatStep _ _ h)
  | patClose => exact e.stays _ (k.takePatClose _ _ (done (by simp [Payload.kind])) h)
  | patErase => exact e.stays _ (k.takePatErase _ (done (by simp [Payload.kind])) h)
  | roll => exact e.stays _ (k.takeRoll _ _ _ h)
  | reportReq targets page =>
    show R (if _ then _ else _)
    split
    · exact e.stays _ (k.refuse _ _ h)
    · exact e.stays _ (k.offerReports _ h)
  | report => exact e.stays _ h
  | restart => exact k.takeRestart e h

theorem frame (k : Stable P Q) (e : Ends P R Q) {c : List Byte → Instr} (mem : c ∈ frameCommands) (bytes : List Byte) (h : P s) :
    R (s.after (c bytes)) := by
  rcases after_frame_cases mem s bytes with eq | eq | eq | ⟨f, ⟨-, -, routed⟩, eq⟩ <;> rw [eq]
  · exact e.stays _ h
  · exact e.stays _ (k.heard h)
  · exact e.stays _ (k.latchDuplicate (k.heard h))
  · exact k.takes e f routed (k.heard h)

/-! ### The commands of the line -/

theorem setLineView (k : Stable P Q) (v : LineView) (h : P s) : P { s with link := { s.link with line := v } } :=
  k.link _ { s.link with line := v } id h

theorem slotOpening (k : Stable P Q) (slot : Nat) (h : P s) : P (s.after (.slotOpening slot)) := by
  change P (match s.link.line with
    | .contention _ => _
    | .waitGap | .receiving | .sending _ _ => s)
  split
  · split
    · split
      · next p f _ => exact k.link _ _ (fun b => by cases p <;> exact b) h
      · exact k.setLineView _ h
    · exact h
  all_goals exact h

theorem readbackMismatch (k : Stable P Q) (h : P s) : P (s.after .readbackMismatch) := by
  change P (match s.link.line with
    | .sending _ _ => _
    | .waitGap | .contention _ | .receiving => s)
  split
  · next p id _ =>
    have retried : (s.link.retry p).handoffFifo = s.link.handoffFifo ∧ (s.link.retry p).generalFifo = s.link.generalFifo := by
      cases p <;> simp only [Link.retry, and_self] <;> split <;> simp
    have aborted (n : Nat) : P { s with link := { s.link.retry p with line := .receiving, mismatches := n, mismatchFrame := some id } } :=
      k.link s { s.link.retry p with line := .receiving, mismatches := n, mismatchFrame := some id }
        (fun b => by rwa [Link.bounded, retried.1, retried.2]) h
    dsimp only
    split
    · exact k.flag _ (aborted 0)
    · next few => exact aborted _
  all_goals exact h

theorem beaconTimerExpiry (k : Stable P Q) (h : P s) : P (s.after .beaconTimerExpiry) := by
  change P (if _ then _ else s)
  split
  · exact k.link _ { s.link with beaconWaiting := _, serial := _ } id h
  · exact h

theorem peerAgeTimerExpiry (k : Stable P Q) (i : BitVec 4) (h : P s) : P (s.after (.peerAgeTimerExpiry i)) := by
  change P (if _ then _ else s)
  split
  · have stale := k.setPeer i { s.line.peer i with state := .stale, ageTimer := none } h
    dsimp only
    split
    · exact k.afterSpeeds _ (k.retakeQIn (k.latch _ stale))
    · exact k.afterSpeeds _ (k.retakeQIn (k.latch _ stale))
    all_goals exact k.afterSpeeds _ (k.retakeQIn stale)
  · exact h

theorem rampTimerExpiry (k : Stable P Q) (h : P s) : P (s.after .rampTimerExpiry) := by
  change P (if _ then _ else s)
  split
  · next runs => exact k.passOn (k.afterSpeeds _ (k.ramp s runs h))
  · exact h

theorem driveFaultTimerExpiry (k : Stable P Q) (h : P s) : P (s.after .driveFaultTimerExpiry) := by
  change P (if _ then _ else s)
  split
  · exact k.latch _ (k.setLine { s.line with driveTimer := none } rfl rfl rfl rfl h)
  · exact h

/-! ### The commands of the web -/

theorem setTracker (k : Stable P Q) (t : Tracker) (position : t.position = s.tracker.position) (debt : t.debt = s.tracker.debt)
    (misses : t.misses = s.tracker.misses) (stretch : t.stretch = s.tracker.stretch) (handoffs : t.handoffs = s.tracker.handoffs)
    (marks : t.marks = s.tracker.marks) (h : P s) : P { s with tracker := t } :=
  k.tracker _ t position (fun b => by rwa [Tracker.bounded, debt, misses, stretch])
    ⟨by rw [handoffs], by rw [marks]⟩ h

theorem forwardEdge (e : Ends P R Q) (count : BitVec 16) (h : P s) : R (s.after (.forwardEdge count)) := by
  change R (if _ then _ else s)
  split
  · exact e.speeds _ _ (e.forward s _ h)
  · exact e.stays _ h

theorem reverseEdge (k : Stable P Q) (h : P s) : P (s.after .reverseEdge) := by
  change P (if _ then _ else s)
  split
  · have back : P s.backward :=
      k.tracker _ _ rfl (fun ⟨_, misses, stretch⟩ => ⟨min_le_left _ _, misses, stretch⟩) (Tracker.waitsNoMore_refl _) h
    split
    · exact k.latch _ (k.afterSpeeds _ back)
    · exact k.afterSpeeds _ back
  · exact h

theorem captureTimerOverflow (k : Stable P Q) (encoder : Encoder) (h : P s) : P (s.after (.captureTimerOverflow encoder)) := by
  cases encoder
  all_goals
    change P (if _ then _ else s)
    split
    · exact k.afterSpeeds _ (k.setTracker _ rfl rfl rfl rfl rfl rfl h)
    · exact h

theorem surfaceEncoderEdge (k : Stable P Q) (before after : Quad) (count : BitVec 16) (h : P s) :
    P (s.after (.surfaceEncoderEdge before after count)) := by
  change P (if _ then _ else s)
  split
  · split
    · next d _ => cases d <;> exact k.afterSpeeds _ (k.setTracker _ rfl rfl rfl rfl rfl rfl h)
    · exact h
  · exact h

theorem afterPanel_bounded (q : PlanQueue) (p : Panel) (inserted : Bool) (b : q.bounded) : (q.afterPanel p inserted).bounded := by
  obtain ⟨short, counter⟩ := b
  refine ⟨?_, countsFromOne_nextNumber _ counter⟩
  show q.entriesAfter.length ≤ 16
  unfold PlanQueue.entriesAfter
  split
  · next entries =>
    rw [entries, List.length_cons] at short
    split
    · omega
    · simpa using short
  · exact Nat.zero_le _

theorem pairMark (k : Stable P Q) (e : Ends P R Q) (h : P s) : R s.pairMark := by
  unfold State.pairMark
  split
  · next g rest waiting =>
    refine e.stays _ (k.claim g _ (k.atPosition s h) ?_)
    exact k.tracker _ { s.tracker with handoffs := rest } rfl id ⟨by rw [waiting]; exact List.suffix_cons _ _, List.suffix_rfl⟩ h
  · next none =>
    dsimp only
    split
    · next full =>
      refine e.markWaits s _ h (k.discardMark h) none (by simpa using none) ?_
      rw [if_pos full, State.discardMark_marks]
    · next room => exact e.markWaits s s h h none none (if_neg room).symm

theorem markSensed (k : Stable P Q) (e : Ends P R Q) (h : P s) : R (s.after .markSensed) := by
  change R (if _ then _ else s)
  split
  · split
    · have marked := k.setTracker
        { s.tracker with lastMark := some s.tracker.position, lastInterval := s.tracker.intervalAt } rfl rfl rfl rfl rfl rfl h
      exact e.stays _ (k.place _ _ true (k.atPosition s h) (k.plan _ _ (afterPanel_bounded _ _ _) marked))
    · exact k.pairMark e (k.setTracker { s.tracker with lastMark := some s.tracker.position } rfl rfl rfl rfl rfl rfl h)
  · exact e.stays _ h

theorem handoffWindowExpiry (k : Stable P Q) (h : P s) : P (s.after .handoffWindowExpiry) := by
  change P (match s.tracker.handoffs with
    | _ :: _ => _
    | [] => s)
  split
  · split
    · exact k.expireHandoff h
    · exact h
  · exact h

theorem markWindowExpiry (k : Stable P Q) (h : P s) : P (s.after .markWindowExpiry) := by
  change P (match s.tracker.marks with
    | _ :: _ => _
    | [] => s)
  split
  · split
    · exact k.discardMark h
    · exact h
  · exact h

end Stable

end Sys2Proof.Machine
end

section
/-! SUPPORT. Every command, and so every step, keeps a property that the named updates keep. -/

namespace Sys2Proof.Machine

/-- The commands of the contention move the view of the line alone (R2, R6). -/
theorem after_lineView (s : State) {c : Instr}
    (contention : c = .endOfGap ∨ c = .contentionPeriodTimeout ∨ c = .firstActivity ∨ c = .receiveAbort) :
    ∃ v, s.after c = { s with link := { s.link with line := v } } := by
  rcases contention with rfl | rfl | rfl | rfl
  · simp only [State.after, exec, execEndOfGap]
    split
    · split <;> exact ⟨_, rfl⟩
    · exact ⟨_, rfl⟩
  · simp only [State.after, exec, execContentionPeriodTimeout]
    split <;> exact ⟨_, rfl⟩
  · simp only [State.after, exec, execFirstActivity]
    split <;> exact ⟨_, rfl⟩
  · simp only [State.after, exec, execReceiveAbort]
    split <;> exact ⟨_, rfl⟩

namespace Stable

variable {P R : State → Prop} {Q : Pos → Prop} {s : State}

theorem contention (k : Stable P Q) {c : Instr}
    (contention : c = .endOfGap ∨ c = .contentionPeriodTimeout ∨ c = .firstActivity ∨ c = .receiveAbort) (h : P s) :
    P (s.after c) := by
  obtain ⟨v, eq⟩ := after_lineView s contention
  exact eq ▸ k.setLineView v h

/-! ### The commands of the list and of the store -/

theorem featureAtExit (k : Stable P Q) (h : P s) : P (s.after .featureAtExit) := by
  change P (match s.map.features.find? s.exitDue with
    | some _ => _
    | none => s)
  split
  · exact k.featureExit _ (k.markReached h)
  · exact h

theorem spliceReachesEntry (k : Stable P Q) (h : P s) : P (s.after .spliceReachesEntry) := by
  change P (if _ then _ else s)
  split
  · exact k.takeEntry h
  · exact h

theorem webMapLookupComplete (k : Stable P Q) (h : P s) : P (s.after .webMapLookupComplete) := by
  change P (match s.store.serving with
    | some _ => _
    | none => s)
  split
  · split
    · exact k.deliverToMap _ _ (k.store _ _ .serviceEnds h)
    · exact h
  · exact h

theorem sequencerLookupComplete (k : Stable P Q) (h : P s) : P (s.after .sequencerLookupComplete) := by
  change P (match s.store.serving with
    | some _ => _
    | none => s)
  split
  · split
    · exact h
    · exact k.deliverCopy _ _ _ (k.store _ _ .serviceEnds h)
  · exact h

/-- The port goes on in a phase of the running operation. -/
theorem portGoesOn (k : Stable P Q) (phase : Option NvPhase) (h : P s) :
    P { s with store := Store.portGoOn { s.store with phase := phase } } := by
  obtain ⟨nv, counter, table, buffer, ops, -⟩ := Store.portGoOn_same { s.store with phase := phase }
  exact k.store _ _ (.port _ ⟨nv, counter, table, buffer, ops⟩) h

theorem suspendEnd (k : Stable P Q) (h : P s) : P (s.after .suspendEnd) := by
  change P (if _ then _ else s)
  split
  · exact k.portGoesOn _ h
  · exact h

theorem resumeEnd (k : Stable P Q) (h : P s) : P (s.after .resumeEnd) := by
  change P (if _ then _ else s)
  split
  · exact k.portGoesOn _ h
  · exact h

theorem nvProgramComplete (k : Stable P Q) (h : P s) : P (s.after .nvProgramComplete) := by
  change P (match s.store.phase, s.store.ops with
    | some .writing, .program _ _ :: _ => _
    | _, _ => s)
  split
  · next i p rest _ head => exact k.store _ _ (.programCompletes i p rest head) h
  · exact h

theorem nvEraseComplete (k : Stable P Q) (h : P s) : P (s.after .nvEraseComplete) := by
  change P (match s.store.phase, s.store.ops with
    | some .writing, .erase _ :: _ => _
    | _, _ => s)
  split
  · next i rest _ head => exact k.store _ _ (.eraseCompletes i rest head) h
  · exact h

/-! ### The commands of the blade and of the zones -/

theorem strikePositionReached (k : Stable P Q) (h : P s) : P (s.after .strikePositionReached) := by
  change P (match s.dueStrike with
    | some (_, _) => _
    | none => s)
  split
  · exact k.strikeReached _ _ h
  · exact h

theorem strokeTimerExpiry (k : Stable P Q) (h : P s) : P (s.after .strokeTimerExpiry) := by
  change P (if _ then _ else s)
  split
  · exact k.seq _ { s.seq with strokeTimer := none, bladeStrobe := false } (fun sound => ⟨by simp, sound.2⟩) id h
  · exact h

theorem spliceClearPassed (k : Stable P Q) (h : P s) : P (s.after .spliceClearPassed) := by
  change P (match s.seq.clearPos with
    | some _ => _
    | none => s)
  split
  · split
    · exact k.setClear none h
    · exact h
  · exact h

theorem sampleTimerExpiry (k : Stable P Q) (h : P s) : P (s.after .sampleTimerExpiry) := by
  change P (if _ then _ else s)
  split
  · exact k.steam _ { s.steam with converting := List.range s.steam.zones.length } id h
  · exact h

theorem zoneConversionComplete (k : Stable P Q) (zone : Nat) (raw : BitVec 12) (h : P s) :
    P (s.after (.zoneConversionComplete zone raw)) := by
  change P (if _ then _ else s)
  split
  · split
    · next z found => exact k.takeSample _ _ z found h
    · exact h
  · exact h

theorem valvePeriodStart (k : Stable P Q) (zone : Nat) (h : P s) : P (s.after (.valvePeriodStart zone)) := by
  change P (match s.steam.zones[zone]? with
    | some _ => _
    | none => s)
  split
  · next z found =>
    split
    · exact k.setZone _ z _ found Zone.startPeriod_sound h
    · exact h
  · exact h

theorem valveActiveEnd (k : Stable P Q) (zone : Nat) (h : P s) : P (s.after (.valveActiveEnd zone)) := by
  change P (match s.steam.zones[zone]? with
    | some _ => _
    | none => s)
  split
  · next z found =>
    split
    · exact k.setZone _ z _ found Zone.endActive_sound h
    · exact h
  · exact h

theorem doseTimerExpiry (k : Stable P Q) (h : P s) : P (s.after .doseTimerExpiry) := by
  change P (if _ then _ else s)
  split
  · exact k.creditAll h
  · exact h

theorem segmentBoundary (k : Stable P Q) (h : P s) : P (s.after .segmentBoundary) := by
  change P (if _ then _ else s)
  split
  · exact k.makeSegment h
  · exact h

theorem segmentAtExit (k : Stable P Q) (h : P s) : P (s.after .segmentAtExit) := by
  change P (match s.segmentDue with
    | some _ => _
    | none => s)
  split
  · exact k.judge _ h
  · exact h

/-! ### The commands of the splice -/

theorem rollRunOut (k : Stable P Q) (h : P s) : P (s.after .rollRunOut) := by
  change P (match s.splice.runOut with
    | some _ => _
    | none => s)
  split
  · exact k.rollOut _ h
  · exact h

theorem spliceArming (k : Stable P Q) (h : P s) : P (s.after .spliceArming) := by
  change P (if _ then _ else s)
  split
  · exact k.armTest h
  · exact h

theorem spliceRampTimerExpiry (k : Stable P Q) (h : P s) : P (s.after .spliceRampTimerExpiry) := by
  change P (if _ then _ else s)
  split
  · exact k.setVNew _ h
  · exact h

theorem matchTimerExpiry (k : Stable P Q) (h : P s) : P (s.after .matchTimerExpiry) := by
  change P (if _ then _ else s)
  split
  · next matching => exact k.completeMatch matching.1 h
  · exact h

theorem matchTimeoutExpiry (k : Stable P Q) (h : P s) : P (s.after .matchTimeoutExpiry) := by
  change P (if _ then _ else s)
  split
  · next matching => exact k.flag _ (k.leaveMatching _ matching.1 h)
  · exact h

theorem pasteStrobeEnd (k : Stable P Q) (h : P s) : P (s.after .pasteStrobeEnd) := by
  change P (if _ then _ else s)
  split
  · exact k.splice _ { s.splice with state := .cutting, paste := false, cut := true, strobeTimer := some 50000 }
      (fun ⟨active, expiring, _⟩ => ⟨active, expiring, fun _ => .inr rfl, nofun, fun _ => rfl⟩) id h
  · exact h

theorem cutStrobeEnd (k : Stable P Q) (h : P s) : P (s.after .cutStrobeEnd) := by
  change P (if _ then _ else s)
  split
  · next cutting => exact k.endCut cutting.1 h
  · exact h

/-! ### The commands of start-up -/

theorem startUp (k : Stable P Q) (straps : BitVec 4) (h : P s) : P (s.after (.startUp straps)) := by
  change P (if _ then _ else s)
  split
  · next inReset =>
    split
    · exact k.configBad (.inl inReset) (k.boot _ _ (.noIndex inReset) h)
    · exact k.boot _ _ (.sampled straps inReset) h
  · exact h

theorem configReadComplete (k : Stable P Q) (e : Ends P R Q) (words : List Word16) (h : P s) :
    R (s.after (.configReadComplete words)) := by
  change R (if _ then _ else s)
  split
  · next read =>
    split
    · next c good => exact e.configGood s words c read good h
    · exact e.stays _ (k.link _ { s.configBad.link with beaconTimer := some 5000 } id (k.configBad (.inr read) h))
  · exact e.stays _ h

theorem scanReadComplete (k : Stable P Q) (h : P s) : P (s.after .scanReadComplete) := by
  change P (if _ then _ else s)
  split
  · next reading =>
    have read := k.scanRead s reading.1 reading.2 h
    dsimp only
    split
    · exact k.scanComplete reading.1 read
    · exact read
  · exact h

theorem scanEraseComplete (k : Stable P Q) (h : P s) : P (s.after .scanEraseComplete) := by
  change P (if _ then _ else s)
  split
  · next erasing =>
    split
    · next i rest marks =>
      have erased := k.scanErase s i rest erasing.1 erasing.2 marks h
      dsimp only
      split
      · exact k.scanComplete erasing.1 erased
      · exact erased
    · exact h
  · exact h

theorem listenTimerExpiry (k : Stable P Q) (h : P s) : P (s.after .listenTimerExpiry) := by
  change P (if _ then _ else s)
  split
  · next listen =>
    have taken := k.retakeQIn (k.boot _ _ (.done listen.1) h)
    dsimp only
    split
    · exact k.enterLine _ (k.haltOrigin _ taken)
    · exact k.enterLine _ taken
  · exact h

/-! ### Every command -/

theorem after (k : Stable P Q) (e : Ends P R Q) (c : Instr) (h : P s) : R (s.after c) := by
  cases c with
  | powerOn | powerFailure => exact e.reset s _ _ nofun h
  | resetPin =>
    change R (if _ then s else _)
    split
    · exact e.stays _ h
    · exact e.reset s _ _ nofun h
  | startUp straps => exact e.stays _ (k.startUp straps h)
  | configReadComplete words => exact k.configReadComplete e words h
  | scanReadComplete => exact e.stays _ (k.scanReadComplete h)
  | scanEraseComplete => exact e.stays _ (k.scanEraseComplete h)
  | listenTimerExpiry => exact e.stays _ (k.listenTimerExpiry h)
  | endOfGap | contentionPeriodTimeout | firstActivity | receiveAbort =>
    exact e.stays _ (k.contention (by simp) h)
  | slotOpening slot => exact e.stays _ (k.slotOpening slot h)
  | readbackMismatch => exact e.stays _ (k.readbackMismatch h)
  | frameSent => exact e.stays _ (k.frameSent h)
  | beaconTimerExpiry => exact e.stays _ (k.beaconTimerExpiry h)
  | halt bytes | beacon bytes | run bytes | stop bytes | clear bytes | release bytes | handoffPanel bytes | handoffSplice bytes
  | handoffReject bytes | plan bytes | patOpen bytes | patStep bytes | patClose bytes | patErase bytes | roll bytes
  | reportReq bytes | report bytes | restart bytes => exact k.frame e (by simp [frameCommands]) bytes h
  | peerAgeTimerExpiry i => exact e.stays _ (k.peerAgeTimerExpiry i h)
  | rampTimerExpiry => exact e.stays _ (k.rampTimerExpiry h)
  | driveFaultTimerExpiry => exact e.stays _ (k.driveFaultTimerExpiry h)
  | stepPeriodEnd gen => cases gen <;> exact e.stays _ (k.steps _ _ _ h)
  | forwardEdge count => exact forwardEdge e count h
  | reverseEdge => exact e.stays _ (k.reverseEdge h)
  | captureTimerOverflow encoder => exact e.stays _ (k.captureTimerOverflow encoder h)
  | surfaceEncoderEdge before after count => exact e.stays _ (k.surfaceEncoderEdge before after count h)
  | markSensed => exact k.markSensed e h
  | handoffWindowExpiry => exact e.stays _ (k.handoffWindowExpiry h)
  | markWindowExpiry => exact e.stays _ (k.markWindowExpiry h)
  | featureAtExit => exact e.stays _ (k.featureAtExit h)
  | spliceReachesEntry => exact e.stays _ (k.spliceReachesEntry h)
  | webMapLookupComplete => exact e.stays _ (k.webMapLookupComplete h)
  | sequencerLookupComplete => exact e.stays _ (k.sequencerLookupComplete h)
  | suspendEnd => exact e.stays _ (k.suspendEnd h)
  | resumeEnd => exact e.stays _ (k.resumeEnd h)
  | nvProgramComplete => exact e.stays _ (k.nvProgramComplete h)
  | nvEraseComplete => exact e.stays _ (k.nvEraseComplete h)
  | strikePositionReached => exact e.stays _ (k.strikePositionReached h)
  | strokeTimerExpiry => exact e.stays _ (k.strokeTimerExpiry h)
  | spliceClearPassed => exact e.stays _ (k.spliceClearPassed h)
  | sampleTimerExpiry => exact e.stays _ (k.sampleTimerExpiry h)
  | zoneConversionComplete zone raw => exact e.stays _ (k.zoneConversionComplete zone raw h)
  | valvePeriodStart zone => exact e.stays _ (k.valvePeriodStart zone h)
  | valveActiveEnd zone => exact e.stays _ (k.valveActiveEnd zone h)
  | doseTimerExpiry => exact e.stays _ (k.doseTimerExpiry h)
  | segmentBoundary => exact e.stays _ (k.segmentBoundary h)
  | segmentAtExit => exact e.stays _ (k.segmentAtExit h)
  | rollRunOut => exact e.stays _ (k.rollRunOut h)
  | spliceArming => exact e.stays _ (k.spliceArming h)
  | spliceRampTimerExpiry => exact e.stays _ (k.spliceRampTimerExpiry h)
  | matchTimerExpiry => exact e.stays _ (k.matchTimerExpiry h)
  | matchTimeoutExpiry => exact e.stays _ (k.matchTimeoutExpiry h)
  | pasteStrobeEnd => exact e.stays _ (k.pasteStrobeEnd h)
  | cutStrobeEnd => exact e.stays _ (k.cutStrobeEnd h)

end Stable

end Sys2Proof.Machine
end

section
/-! SUPPORT. What every step keeps: the queue of commands, the capacities and ranges, the speed limit, the rolls, the zones and doses, the
strokes and strikes; and the reset state, which has all of it. -/

namespace Sys2Proof.Machine

/-- A property that the queue does not touch, that the updates keep and that every end of a command keeps is kept by every step. -/
theorem Stable.step {P : State → Prop} {Q : Pos → Prop} (k : Stable P Q) (e : Ends P P Q)
    (queue : ∀ s l, P s → P { s with pending := l }) {s t : State} (h : step s = .next t) (hs : P s) : P t :=
  step_keeps queue (fun _ c => k.after e c) h hs

/-! ### The queue -/

def stablePending (l : List Instr) : Stable fun s => s.pending = l := {}

theorem State.stopArray_pending (s : State) : s.stopArray.pending = s.pending := by
  unfold State.stopArray
  split
  · rfl
  · split <;> rfl

def endsPending (l : List Instr) : Ends (fun s => s.pending = l) fun s => s.pending = l where
  reset s _ _ _ h := s.stopArray_pending.trans h
  speeds _ _ h := (stablePending l).afterSpeeds _ h

/-- Settles O2: no command stops, and none touches the queue. -/
theorem everyCommandAnswersANextState : Obligations.EveryCommandAnswersANextState := fun c s =>
  ⟨s.after c, exec_eq_after c s, (stablePending s.pending).after (endsPending s.pending) c rfl⟩

/-- Settles O1: by definition. -/
theorem stepRunsTheFrontCommand : Obligations.StepRunsTheFrontCommand := fun _ _ _ => rfl

/-! ### The reset values -/

theorem LineControl.reset_bounded : LineControl.reset.bounded := ⟨by decide, by decide⟩

theorem Tracker.reset_bounded : Tracker.reset.bounded := ⟨by decide, by decide, by decide, by decide⟩

theorem PlanQueue.reset_bounded : PlanQueue.reset.bounded := ⟨by decide, by decide⟩

theorem Splice.reset_counter : countsFromOne Splice.reset.counter := by decide

theorem Splice.reset_sound : Splice.reset.sound := by decide

theorem Sequencer.reset_sound : Sequencer.reset.sound := by decide

/-! ### Capacities and ranges -/

def stableLink : Stable fun s => s.link.bounded where
  link _ _ keeps h := keeps h

def endsLink : Ends (fun s => s.link.bounded) fun s => s.link.bounded where
  reset _ _ _ _ _ := ⟨Nat.zero_le _, Nat.zero_le _⟩
  speeds _ _ := stableLink.afterSpeeds _

def stableQIn : Stable fun s => s.line.bounded where
  line _ _ _ _ _ keeps h := keeps h

def endsQIn : Ends (fun s => s.line.bounded) fun s => s.line.bounded where
  reset _ _ _ _ _ := LineControl.reset_bounded
  speeds _ _ := stableQIn.afterSpeeds _

def stableTracker : Stable fun s => s.tracker.bounded where
  tracker _ _ _ keeps _ h := keeps h

def endsTracker : Ends (fun s => s.tracker.bounded) fun s => s.tracker.bounded where
  reset _ _ _ _ _ := Tracker.reset_bounded
  forward _ _ h := ⟨(Nat.sub_le _ _).trans h.1, h.2⟩
  speeds _ _ := stableTracker.afterSpeeds _

/-- The pending handoffs and the unclaimed marks stand within their capacities and never wait for each other (R64 to R66). -/
def Tracker.waitsWithin (t : Tracker) : Prop :=
  t.handoffs.length ≤ 4 ∧ t.marks.length ≤ 4 ∧ (t.handoffs = [] ∨ t.marks = [])

theorem Tracker.waitsWithin_of_waitsNoMore {t u : Tracker} (fewer : t.waitsNoMore u) (h : t.waitsWithin) : u.waitsWithin := by
  obtain ⟨handoffs, marks⟩ := fewer
  obtain ⟨few, some, either⟩ := h
  have lengths := handoffs.length_le
  simp only [List.length_map] at lengths
  refine ⟨lengths.trans few, marks.length_le.trans some, either.imp (fun none => ?_) fun none => ?_⟩
  · rw [none] at handoffs
    exact List.map_eq_nil_iff.1 (List.suffix_nil.1 handoffs)
  · exact List.suffix_nil.1 (none ▸ marks)

def stableWaits : Stable fun s => s.tracker.waitsWithin where
  tracker _ _ _ _ fewer h := Tracker.waitsWithin_of_waitsNoMore fewer h

def endsWaits : Ends (fun s => s.tracker.waitsWithin) fun s => s.tracker.waitsWithin where
  reset _ _ _ _ _ := ⟨Nat.zero_le _, Nat.zero_le _, .inl rfl⟩
  speeds _ _ := stableWaits.afterSpeeds _
  handoffWaits s t h hs _ _ _ noMarks handoffs := by
    refine ⟨?_, by simp [noMarks], .inr noMarks⟩
    have few := hs.1
    simp only [handoffs, List.length_append, List.length_singleton]
    split <;> simp <;> omega
  markWaits s t hs _ _ noHandoffs marks := by
    refine ⟨by simp [noHandoffs], ?_, .inl noHandoffs⟩
    have few := hs.2.1
    simp only [marks, List.length_append, List.length_singleton]
    split <;> simp <;> omega

theorem length_insertFeature (f : Feature) (fs : List Feature) : (insertFeature f fs).length = fs.length + 1 := by
  induction fs with
  | nil => rfl
  | cons x xs ih =>
    unfold insertFeature
    split <;> simp [ih]

theorem length_le_of_places {fs gs : List Feature} (h : (places fs).Sublist (places gs)) : fs.length ≤ gs.length := by
  simpa [places] using h.length_le

theorem State.short_of_room {s : State} {f : Feature} (room : s.hasRoomFor f = true) : s.map.features.length < 32 := by
  simp only [State.hasRoomFor, Bool.and_eq_true, decide_eq_true_eq] at room
  exact room.1

def stableList : Stable fun s => s.map.features.length ≤ 32 where
  map _ _ fewer h := (length_le_of_places fewer).trans h
  insert _ _ room _ _ := (length_insertFeature _ _).trans_le (State.short_of_room room)

def endsList : Ends (fun s => s.map.features.length ≤ 32) fun s => s.map.features.length ≤ 32 where
  reset _ _ _ _ _ := Nat.zero_le _
  speeds _ _ := stableList.afterSpeeds _

def stablePlan : Stable fun s => s.plan.bounded where
  plan _ _ keeps h := keeps h

def endsPlan : Ends (fun s => s.plan.bounded) fun s => s.plan.bounded where
  reset _ _ _ _ _ := PlanQueue.reset_bounded
  speeds _ _ := stablePlan.afterSpeeds _

theorem configGood_queue (s : State) (c : StationConfig) : (s.configGood c).dose.queue = s.dose.queue := by
  unfold State.configGood
  dsimp only
  split <;> rfl

def stableQueue : Stable fun s => s.dose.queue.length ≤ 64 where
  dose _ _ short _ h := short h

def endsQueue : Ends (fun s => s.dose.queue.length ≤ 64) fun s => s.dose.queue.length ≤ 64 where
  reset _ _ _ _ _ := Nat.zero_le _
  configGood s _ c _ _ h := by rwa [configGood_queue]
  speeds _ _ := stableQueue.afterSpeeds _

def stableCounter : Stable fun s => countsFromOne s.splice.counter where
  splice _ _ _ keeps h := keeps h

def endsCounter : Ends (fun s => countsFromOne s.splice.counter) fun s => countsFromOne s.splice.counter where
  reset _ _ _ _ _ := Splice.reset_counter
  speeds _ _ := stableCounter.afterSpeeds _

def stableRatios : Stable fun s => s.seq.bounded where
  seq _ _ _ keeps h := keeps h

def endsRatios : Ends (fun s => s.seq.bounded) fun s => s.seq.bounded where
  reset _ _ _ _ _ := ⟨Nat.zero_le _, Nat.zero_le _⟩
  speeds _ _ := stableRatios.afterSpeeds _

/-- q_out lies between 1 and q_in where q_in and the current ratio stand in their ranges (R47). -/
theorem State.qOut_bounds {s : State} (one : 1 ≤ s.line.qIn) (ratio : Context.bounded s.seq.current) :
    1 ≤ s.qOut ∧ s.qOut ≤ s.line.qIn := by
  have panel : s.currentQPanel ≤ 65536 := by
    unfold State.currentQPanel
    split
    · next c current => simpa [Context.bounded, current] using ratio
    · exact Nat.le_refl _
  have scaled : s.line.qIn * s.currentQPanel / 65536 ≤ s.line.qIn := Nat.div_le_of_le_mul (by
    rw [Nat.mul_comm 65536]
    exact Nat.mul_le_mul_left _ panel)
  unfold State.qOut
  split
  · split
    · exact ⟨le_max_left _ _, max_le one scaled⟩
    · exact ⟨le_max_left _ _, max_le one scaled⟩
    all_goals exact ⟨one, Nat.le_refl _⟩
  · exact ⟨one, Nat.le_refl _⟩

/-- Settles O54: each component keeps what is bounded in it, and q_out follows from q_in and the ratios. -/
theorem stepsKeepCapacitiesAndRanges : Obligations.StepsKeepCapacitiesAndRanges := by
  rintro s t ⟨handoffFifo, generalFifo, handoffs, marks, features, entries, queue⟩
    ⟨one, qIn, debt, misses, low, high, plan, splice, either, current, next, -, -⟩ taken
  have link := stableLink.step endsLink (fun _ _ h => h) taken ⟨handoffFifo, generalFifo⟩
  have waits := stableWaits.step endsWaits (fun _ _ h => h) taken ⟨handoffs, marks, either⟩
  have list := stableList.step endsList (fun _ _ h => h) taken features
  have planned := stablePlan.step endsPlan (fun _ _ h => h) taken ⟨entries, plan⟩
  have queued := stableQueue.step endsQueue (fun _ _ h => h) taken queue
  have line := stableQIn.step endsQIn (fun _ _ h => h) taken ⟨one, qIn⟩
  have tracker := stableTracker.step endsTracker (fun _ _ h => h) taken ⟨debt, misses, low, high⟩
  have counter := stableCounter.step endsCounter (fun _ _ h => h) taken splice
  have ratios := stableRatios.step endsRatios (fun _ _ h => h) taken ⟨current, next⟩
  exact ⟨⟨link.1, link.2, waits.1, waits.2.1, list, planned.1, queued⟩,
    line.1, line.2, tracker.1, tracker.2.1, tracker.2.2.1, tracker.2.2.2, planned.2, counter, waits.2.2, ratios.1, ratios.2,
    State.qOut_bounds line.1 ratios.1⟩

/-! ### The speed limit -/

theorem State.target_le_maxSpeed (s : State) : s.target ≤ s.cfg.maxSpeed := by
  by_cases run : s.line.state = .run
  · by_cases heard : s.line.allHeard = true
    · exact (State.target_isSmallest run heard).2.1.trans (State.ownCeiling_isSmallest run).1
    · simp [State.target, run, heard]
  · simp [State.target_of_not_run run]

/-- A ramp step ends at the target or below the greater of it and v_cmd. -/
theorem State.ramped_le (s : State) (h : s.line.vCmd ≤ s.cfg.maxSpeed) : s.ramped ≤ s.cfg.maxSpeed := by
  have target := s.target_le_maxSpeed
  unfold State.ramped
  split
  · exact (min_le_left _ _).trans target
  · split
    · exact max_le target ((Nat.sub_le _ _).trans h)
    · exact h

theorem State.configured_of_bootMove {s : State} {b : Boot} (move : s.BootMove b) (before : s.configured = true) :
    State.configured { s with boot := b } = true := by
  cases move with
  | stops early => rcases early with early | early <;> simp [State.configured, early] at before
  | _ => simp_all [State.configured]

def stableSpeed : Stable State.speedLimited where
  line s l _ vCmd ramp _ h := by
    unfold State.speedLimited
    rw [vCmd, ramp]
    exact h
  ramp s runs h := ⟨s.ramped_le h.1, fun idle => absurd (h.2 idle).2 runs⟩
  boot s b move h := by
    refine ⟨h.1, fun idle => h.2 ?_⟩
    by_contra configured
    exact absurd (State.configured_of_bootMove move (by simpa using configured)) (by simp [idle])
  scanRead s scan _ h := ⟨h.1, fun idle => by simp [State.configured, scan] at idle⟩
  scanErase s _ _ scan _ _ h := ⟨h.1, fun idle => by simp [State.configured, scan] at idle⟩

def endsSpeed : Ends State.speedLimited State.speedLimited where
  reset _ _ _ _ _ := ⟨Nat.zero_le _, fun _ => ⟨rfl, rfl⟩⟩
  configGood s _ c read _ h := by
    have stopped := (h.2 (by simp [State.configured, read])).1
    exact ⟨by simp [State.configGood, stopped], nofun⟩
  speeds _ _ := stableSpeed.afterSpeeds _

/-- Settles O56: the ramp alone moves v_cmd, toward a target within MAX_SPEED, and runs with a configuration in force alone. -/
theorem stepsKeepTheSpeedLimit : Obligations.StepsKeepTheSpeedLimit := fun _ _ h taken =>
  stableSpeed.step endsSpeed (fun _ _ h => h) taken h

/-! ### The rolls -/

def stableRolls : Stable fun s => s.splice.sound where
  splice _ _ keeps _ h := keeps h

def endsRolls : Ends (fun s => s.splice.sound) fun s => s.splice.sound where
  reset _ _ _ _ _ := Splice.reset_sound
  forward s _ h := by
    unfold Splice.sound
    simp only [State.forward, Roll.count_state]
    exact h
  speeds _ _ := stableRolls.afterSpeeds _

/-- Settles O57. -/
theorem stepsKeepTheRollsSound : Obligations.StepsKeepTheRollsSound := fun _ _ h taken =>
  stableRolls.step endsRolls (fun _ _ h => h) taken h

/-! ### Zones and doses -/

/-- A change of line state takes out of band what may not stay in it (R165). -/
theorem bandsAt_sound {zones : List Zone} {old : LineState} (h : ∀ z ∈ zones, z.sound old) (st : LineState) :
    ∀ z ∈ bandsAt st zones, z.sound st := by
  have out : ∀ z ∈ zones.map fun z => { z with inBand := false }, z.sound st := fun y mem => by
    obtain ⟨z, zoneMem, rfl⟩ := List.mem_map.1 mem
    have range : z.inRange := Zone.inRange_of_sound (h z zoneMem)
    exact Zone.sound_of_inRange range nofun
  have kept (heats : st = .run ∨ st = .stopping) : ∀ z ∈ zones, z.sound st := fun z mem => by
    obtain ⟨duty, pending, low, high, faulted, -⟩ := h z mem
    exact ⟨duty, pending, low, high, faulted, fun _ => heats⟩
  unfold bandsAt
  split
  · exact kept (.inl rfl)
  · exact kept (.inr rfl)
  all_goals exact out

theorem freshZone_sound (z : ZoneConfig) (st : LineState) : (freshZone z).sound st := by
  refine ⟨Nat.zero_le _, Nat.zero_le _, ?_, ?_, nofun, nofun⟩ <;> simp only [freshZone] <;> omega

def stableZones : Stable State.zonesSound where
  line _ _ state _ _ _ h := fun z mem => state ▸ h z mem
  lineState _ st h := bandsAt_sound h st
  steam _ _ keeps h := keeps h

def endsZones : Ends State.zonesSound State.zonesSound where
  reset _ _ _ _ _ := nofun
  configGood s _ c _ _ _ := fun z mem => by
    obtain ⟨zone, -, rfl⟩ := List.mem_map.1 (show z ∈ c.zones.map freshZone from mem)
    exact freshZone_sound zone _
  speeds _ _ := stableZones.afterSpeeds _

def stableDoses : Stable State.dosesSound where
  dose _ _ _ keeps h := keeps h

def endsDoses : Ends State.dosesSound State.dosesSound where
  reset _ _ _ _ _ := nofun
  configGood s _ c _ _ h := by rwa [State.dosesSound, configGood_queue]
  speeds _ _ := stableDoses.afterSpeeds _

/-- Settles O58. -/
theorem stepsKeepZonesAndDosesSound : Obligations.StepsKeepZonesAndDosesSound := fun _ _ zones doses taken =>
  ⟨stableZones.step endsZones (fun _ _ h => h) taken zones, stableDoses.step endsDoses (fun _ _ h => h) taken doses⟩

/-! ### Strokes and strikes -/

def stableStrikes : Stable fun s => s.seq.sound where
  seq _ _ keeps _ h := keeps h

def endsStrikes : Ends (fun s => s.seq.sound) fun s => s.seq.sound where
  reset _ _ _ _ _ := Sequencer.reset_sound
  speeds _ _ := stableStrikes.afterSpeeds _

/-- Settles O59. -/
theorem stepsKeepStrokesAndStrikes : Obligations.StepsKeepStrokesAndStrikes := fun _ _ h taken =>
  stableStrikes.step endsStrikes (fun _ _ h => h) taken h

end Sys2Proof.Machine
end

section
/-! SUPPORT. The Web Map's list: its panel numbers stay unique, and its features stay in order of entry position while the positions it
compares lie near the web position (R75, R76). -/

namespace Sys2Proof.Machine

/-! ### Panel numbers -/

theorem panelNumbers_eq_places (fs : List Feature) : panelNumbers fs = (places fs).filterMap Prod.snd := by
  rw [places, List.filterMap_map]
  rfl

theorem panelNumbers_insertFeature (f : Feature) (fs : List Feature) :
    (panelNumbers (insertFeature f fs)).Perm (panelNumbers (f :: fs)) := by
  refine List.Perm.filterMap _ ?_
  induction fs with
  | nil => exact .refl _
  | cons x xs ih =>
    unfold insertFeature
    split
    · exact (ih.cons x).trans (.swap f x xs)
    · exact .refl _

theorem mem_panelNumbers {n : Nat} {fs : List Feature} : n ∈ panelNumbers fs ↔ ∃ f ∈ fs, f.isPanel n = true := by
  simp only [panelNumbers, List.mem_filterMap]
  refine exists_congr fun f => and_congr_right fun _ => ?_
  obtain ⟨body, e, o, r⟩ := f
  cases body <;> simp [Feature.panel?, Feature.isPanel]

/-- A feature with room has a number that the list does not hold. -/
theorem State.fresh_of_room {s : State} {f : Feature} (room : s.hasRoomFor f = true) {p : Panel} (panel : f.panel? = some p) :
    p.number ∉ panelNumbers s.map.features := by
  obtain ⟨body, e, o, r⟩ := f
  cases body with
  | splice n a => cases panel
  | panel q =>
    obtain rfl : q = p := Option.some.inj panel
    rw [mem_panelNumbers]
    rintro ⟨g, mem, same⟩
    simp only [State.hasRoomFor, Bool.and_eq_true, Bool.not_eq_true', List.any_eq_false] at room
    exact room.2 g mem same

def stableNumbers : Stable State.numbersUnique where
  map s m fewer h := by
    rw [State.numbersUnique, panelNumbers_eq_places] at h ⊢
    exact h.sublist (fewer.filterMap _)
  insert s f room _ h := by
    refine (panelNumbers_insertFeature f _).nodup_iff.2 ?_
    rw [State.numbersUnique, panelNumbers] at h
    cases panel : f.panel? with
    | none => simpa [panelNumbers, panel] using h
    | some p =>
      have fresh := State.fresh_of_room room panel
      simpa [panelNumbers, panel] using ⟨by simpa [panelNumbers] using fresh, h⟩

def endsNumbers : Ends State.numbersUnique State.numbersUnique where
  reset _ _ _ _ _ := List.nodup_nil
  speeds _ _ := stableNumbers.afterSpeeds _

/-! ### Order -/

/-- A position lies within 2^29 ticks of `base` (R75). -/
def nearTo (base p : Pos) : Prop := -536870912 ≤ travel base p ∧ travel base p ≤ 536870912

/-- Near a base, the travel between two positions is the difference of their travels from it. -/
theorem travel_of_nearTo {base p q : Pos} (hp : nearTo base p) (hq : nearTo base q) :
    travel q p = travel base p - travel base q := by
  unfold nearTo travel at *
  rw [show q - p = (base - p) - (base - q) by bv_omega, BitVec.toInt_sub, Int.bmod_eq_of_le] <;> omega

theorem travel_ahead (base : Pos) {n : Nat} (small : n ≤ 2000000) : travel base (ahead base n) = -(n : Int) := by
  unfold travel ahead
  rw [show base - (base + BitVec.ofNat 32 n) = -BitVec.ofNat 32 n by bv_omega, BitVec.toInt_neg]
  have value : (BitVec.ofNat 32 n).toInt = n := by
    rw [BitVec.toInt_eq_toNat_of_lt] <;> rw [BitVec.toNat_ofNat] <;> omega
  rw [value, Int.bmod_eq_of_le] <;> omega

theorem mem_insertFeature {f g : Feature} {fs : List Feature} : g ∈ insertFeature f fs ↔ g = f ∨ g ∈ fs := by
  induction fs with
  | nil => simp [insertFeature]
  | cons x xs ih =>
    unfold insertFeature
    split
    · simp only [List.mem_cons, ih]
      tauto
    · simp

/-- Features near a base stand in order as their travels from it fall. -/
theorem insertFeature_inOrder {base : Pos} {f : Feature} {fs : List Feature} (hf : nearTo base f.entry)
    (near : ∀ g ∈ fs, nearTo base g.entry) (order : fs.Pairwise fun f g => 0 ≤ travel g.entry f.entry) :
    (insertFeature f fs).Pairwise fun f g => 0 ≤ travel g.entry f.entry := by
  induction fs with
  | nil => exact List.pairwise_singleton _ _
  | cons x xs ih =>
    obtain ⟨first, rest⟩ := List.pairwise_cons.1 order
    have hx := near x List.mem_cons_self
    unfold insertFeature
    split
    · next before =>
      refine List.pairwise_cons.2 ⟨fun g mem => ?_, ih (fun g mem => near g (List.mem_cons_of_mem _ mem)) rest⟩
      rcases mem_insertFeature.1 mem with rfl | mem
      · simpa [atOrBefore] using before
      · exact first g mem
    · next after =>
      simp only [atOrBefore, decide_eq_true_eq, not_le, travel_of_nearTo hx hf] at after
      refine List.pairwise_cons.2 ⟨fun g mem => ?_, order⟩
      rw [travel_of_nearTo hf (near g mem)]
      rcases List.mem_cons.1 mem with rfl | mem
      · omega
      · have later := first g mem
        rw [travel_of_nearTo hx (near g (List.mem_cons_of_mem _ mem))] at later
        omega

theorem listInOrder_iff_places (s : State) :
    s.listInOrder ↔ (places s.map.features).Pairwise fun a b => 0 ≤ travel b.1 a.1 := by
  rw [places, List.pairwise_map]
  rfl

/-- The list is in order, and every position it compares lies near `base`. -/
structure State.orderedNear (base : Pos) (s : State) : Prop where
  order : s.listInOrder
  features : ∀ q ∈ places s.map.features, nearTo base q.1
  marks : ∀ m ∈ s.tracker.marks, nearTo base m
  arrivals : ∀ p ∈ s.tracker.handoffs.map PendingHandoff.arrival, nearTo base p
  here : nearTo base s.tracker.position
  splice : nearTo base (ahead s.tracker.position s.cfg.pDist)

def stableOrder (base : Pos) : Stable (State.orderedNear base) (nearTo base) where
  events _ _ h := { h with }
  link _ _ _ h := { h with }
  line _ _ _ _ _ _ h := { h with }
  lineState _ _ h := { h with }
  ramp _ _ h := { h with }
  steps _ _ _ h := { h with }
  tracker s t position _ fewer h :=
    { h with
      marks := fun m mem => h.marks m (fewer.2.subset mem)
      arrivals := fun p mem => h.arrivals p (fewer.1.subset mem)
      here := by simpa only [position] using h.here
      splice := by simpa only [position] using h.splice }
  map s m fewer h :=
    { h with
      order := (listInOrder_iff_places _).2 (((listInOrder_iff_places s).1 h.order).sublist fewer)
      features := fun q mem => h.features q (fewer.subset mem) }
  insert s f _ near h :=
    { h with
      order := insertFeature_inOrder near (fun g mem => h.features g.place (List.mem_map_of_mem mem)) h.order
      features := fun q mem => by
        obtain ⟨g, inserted, rfl⟩ := List.mem_map.1 mem
        rcases mem_insertFeature.1 inserted with rfl | old
        · exact near
        · exact h.features g.place (List.mem_map_of_mem old) }
  plan _ _ _ h := { h with }
  store _ _ _ h := { h with }
  seq _ _ _ _ h := { h with }
  steam _ _ _ h := { h with }
  dose _ _ _ _ h := { h with }
  splice _ _ _ _ h := { h with }
  free _ _ h := { h with }
  boot _ _ _ h := { h with }
  scanRead _ _ _ h := { h with }
  scanErase _ _ _ _ _ _ h := { h with }
  atPosition _ h := h.here
  atMark _ h := h.marks
  atArrival _ h g mem := h.arrivals _ (List.mem_map_of_mem mem)
  atSplice _ h := h.splice

def endsOrder (base : Pos) : Ends (State.orderedNear base) State.listInOrder (nearTo base) where
  stays _ h := h.order
  reset _ _ _ _ _ := List.Pairwise.nil
  configGood _ _ _ _ _ h := h.order
  forward _ _ h := h.order
  speeds old s h := by
    unfold State.listInOrder at *
    simpa using h
  handoffWaits _ _ _ _ h _ _ _ _ := h.order
  markWaits _ _ _ h _ _ _ := h.order

theorem State.orderedNear_of_near {s : State} (near : s.near) (order : s.listInOrder) : s.orderedNear s.tracker.position := by
  obtain ⟨features, marks, handoffs, pDist⟩ := near
  refine ⟨order, fun q mem => ?_, marks, fun p mem => ?_, ?_, ?_⟩
  · obtain ⟨f, listed, rfl⟩ := List.mem_map.1 mem
    exact features f listed
  · obtain ⟨h, waiting, rfl⟩ := List.mem_map.1 mem
    exact handoffs h waiting
  · simp [nearTo, travel]
  · rw [nearTo, travel_ahead _ pDist]
    omega

/-- Settles O55: an insertion is of a number that the list does not hold and behind all that lies before it, and every other change of
the list drops features or leaves them where they are. -/
theorem stepsKeepPanelNumbersUnique : Obligations.StepsKeepPanelNumbersUnique := by
  refine ⟨fun _ _ h taken => stableNumbers.step endsNumbers (fun _ _ h => h) taken h, fun s t near order taken => ?_⟩
  have h := State.orderedNear_of_near near order
  unfold step at taken
  split at taken
  · exact Host.Outcome.next.inj taken ▸ order
  · next c rest _ =>
    rw [← after_eq_of_exec taken]
    exact (stableOrder s.tracker.position).after (endsOrder _) c { h with }

end Sys2Proof.Machine
end

section
/-! SUPPORT. The Pattern Store: one VALID slot for each id, the operations and the records of the array fitting the slot table, and the
slots of protected ids left alone by every step but a reset (R105 to R110, R116 to R118). -/

namespace Sys2Proof.Machine

/-! ### A sound store -/

/-- The slot is VALID or PROGRAMMING with a protected id (R105). -/
def Store.protects (st : Store) (boundary : Nat) (i : Fin 32) (id : Nat) : Prop :=
  ((st.record i).state = .valid ∨ (st.record i).state = .programming) ∧ (st.record i).id = some id ∧ id ≤ boundary

/-- The part of `State.storeSound` that the store alone decides, with the boundary of the protected ids. -/
structure Store.sound (st : Store) (boundary : Nat) : Prop where
  slots : (st.ops.map NvOp.slot).Nodup
  fit : ∀ op ∈ st.ops, st.opFits op
  whole : ∀ i : Fin 32, (st.record i).state = .valid →
    ∃ r, st.cell i = some r ∧ r.complete = true ∧ r.retired = false ∧ (st.record i).id = some r.pattern.id
  passing : ∀ (i : Fin 32) (r : NvRecord), st.cell i = some r → r.complete = true → r.pattern.passes
  single : ∀ (i j : Fin 32) (id : Nat), st.protects boundary i id → st.protects boundary j id → i = j

/-- A sound store whose operations wait in DONE alone and whose table is EMPTY before the end of the scan's reading. -/
structure Store.stands (st : Store) (boot : Boot) (boundary : Nat) : Prop where
  ready : boot.phase ≠ .done → st.ops = []
  early : boot.phase ≠ .done → boot.phase ≠ .listen → boot.phase ≠ .scan ∨ boot.scanReading = true →
    ∀ i : Fin 32, (st.record i).state = .empty
  sound : st.sound boundary

theorem State.storeSound_iff (s : State) : s.storeSound ↔ s.store.stands s.boot s.cfg.protectBoundary := by
  constructor
  · rintro ⟨ready, slots, fit, early, whole, passing, single⟩
    exact ⟨ready, early, ⟨slots, fit, whole, passing, single⟩⟩
  · rintro ⟨ready, early, ⟨slots, fit, whole, passing, single⟩⟩
    exact ⟨ready, slots, fit, early, whole, passing, single⟩

/-- Table, array and operations decide soundness. -/
theorem Store.sound.congr {st t : Store} {b : Nat} (h : st.sound b) (table : t.table = st.table) (nv : t.nv = st.nv)
    (ops : t.ops = st.ops) : t.sound b := by
  obtain ⟨nv', counter, table', buffer, ops', _⟩ := t
  subst table nv ops
  exact ⟨h.slots, h.fit, h.whole, h.passing, h.single⟩

theorem Store.opFits_congr {st t : Store} {op : NvOp} (same : t.record op.slot = st.record op.slot) :
    t.opFits op ↔ st.opFits op := by
  cases op <;> simp only [NvOp.slot] at same <;> simp only [Store.opFits, same]

theorem Store.protects_congr {st t : Store} {b id : Nat} {i : Fin 32} (same : t.record i = st.record i) :
    t.protects b i id ↔ st.protects b i id := by
  simp only [Store.protects, same]

/-- An operation's slot is neither VALID nor EMPTY. -/
theorem Store.opFits_state {st : Store} {op : NvOp} (fits : st.opFits op) :
    (st.record op.slot).state ≠ .valid ∧ (st.record op.slot).state ≠ .empty := by
  cases op with
  | program i p => simp [NvOp.slot, fits.1]
  | erase i => rcases fits with state | state <;> simp [NvOp.slot, state]

/-- The stores differ in one slot alone. -/
def Store.alters (st t : Store) (i : Fin 32) : Prop := ∀ j, j ≠ i → t.record j = st.record j ∧ t.cell j = st.cell j

theorem Store.alters_setCell (st : Store) (i : Fin 32) (c : Option NvRecord) : st.alters (st.setCell i c) i := fun _ other =>
  ⟨rfl, (Store.setCell_cell ..).trans (if_neg other.symm)⟩

theorem Store.alters_setRecord (st : Store) (i : Fin 32) (r : SlotRecord) : st.alters (st.setRecord i r) i := fun _ other =>
  ⟨(Store.setRecord_record ..).trans (if_neg other.symm), rfl⟩

/-- A change of one slot keeps a store sound when that slot is as it should be. -/
theorem Store.sound.alter {st t : Store} {b : Nat} {i : Fin 32} (h : st.sound b) (others : st.alters t i)
    (slots : (t.ops.map NvOp.slot).Nodup) (fit : ∀ op ∈ t.ops, op ∈ st.ops ∧ op.slot ≠ i ∨ t.opFits op)
    (whole : (t.record i).state = .valid →
      ∃ r, t.cell i = some r ∧ r.complete = true ∧ r.retired = false ∧ (t.record i).id = some r.pattern.id)
    (passing : ∀ r, t.cell i = some r → r.complete = true → r.pattern.passes)
    (single : ∀ id, t.protects b i id → ∀ j, j ≠ i → ¬ st.protects b j id) : t.sound b where
  slots := slots
  fit op mem := by
    rcases fit op mem with ⟨old, other⟩ | fits
    · exact (Store.opFits_congr (others _ other).1).2 (h.fit op old)
    · exact fits
  whole j valid := by
    by_cases own : j = i
    · exact own ▸ whole (own ▸ valid)
    · rw [(others j own).1, (others j own).2] at *
      exact h.whole j valid
  passing j r holds complete := by
    by_cases own : j = i
    · exact passing r (own ▸ holds) complete
    · exact h.passing j r ((others j own).2 ▸ holds) complete
  single j k id hj hk := by
    by_cases jOwn : j = i <;> by_cases kOwn : k = i
    · exact jOwn.trans kOwn.symm
    · exact absurd ((Store.protects_congr (others k kOwn).1).1 hk) (single id (jOwn ▸ hj) k kOwn)
    · exact absurd ((Store.protects_congr (others j jOwn).1).1 hj) (single id (kOwn ▸ hk) j jOwn)
    · exact h.single j k id ((Store.protects_congr (others j jOwn).1).1 hj) ((Store.protects_congr (others k kOwn).1).1 hk)

theorem Store.sound.head_apart {st : Store} {b : Nat} (h : st.sound b) {op : NvOp} {rest : List NvOp}
    (head : st.ops = op :: rest) : (rest.map NvOp.slot).Nodup ∧ ∀ q ∈ rest, q ∈ st.ops ∧ q.slot ≠ op.slot := by
  have slots := h.slots
  rw [head, List.map_cons, List.nodup_cons] at slots
  refine ⟨slots.2, fun q mem => ⟨head ▸ List.mem_cons_of_mem _ mem, fun same => slots.1 ?_⟩⟩
  exact same ▸ List.mem_map_of_mem mem

/-! ### An operation begins (R108) -/

theorem Store.beginOp_of_noOps {st : Store} (noOps : st.ops = []) : st.beginOp = st := by
  unfold Store.beginOp
  split <;> simp_all

/-- What a beginning operation does to its slot. -/
theorem Store.beginOp_cases (st : Store) :
    st.beginOp = st ∨
      (∃ i p rest, st.ops = .program i p :: rest ∧
        st.beginOp = Store.setCell { st with phase := some .writing, opTime := opDuration (.program i p) } i
          (some { pattern := p, version := 0, marker := false, checkGood := false, retired := false })) ∨
      ∃ i rest, st.ops = .erase i :: rest ∧
        st.beginOp = Store.setRecord { st with phase := some .writing, opTime := opDuration (.erase i) } i
          { st.record i with state := .erasing } := by
  unfold Store.beginOp
  split
  · next op rest _ _ ops =>
    cases op with
    | program i p => exact .inr (.inl ⟨i, p, rest, ops, rfl⟩)
    | erase i => exact .inr (.inr ⟨i, rest, ops, rfl⟩)
  · exact .inl rfl

theorem Store.sound.beginOp {st : Store} {b : Nat} (h : st.sound b) : st.beginOp.sound b := by
  rcases st.beginOp_cases with same | ⟨i, p, rest, head, begun⟩ | ⟨i, rest, head, begun⟩
  · exact same.symm ▸ h
  · obtain ⟨programming, id, passes⟩ := h.fit _ (head ▸ List.mem_cons_self)
    rw [begun]
    refine h.alter (i := i) (Store.alters_setCell _ i _) h.slots (fun op mem => .inr (h.fit op mem)) ?_ ?_ ?_
    · intro valid
      exact absurd (programming.symm.trans valid) nofun
    · simp [NvRecord.complete]
    · exact fun id own j other holds => other (h.single j i id holds own)
  · rw [begun]
    refine h.alter (i := i) (Store.alters_setRecord _ i _) h.slots ?_ ?_ ?_ ?_
    · intro op mem
      rcases List.mem_cons.1 ((show st.ops = _ from head) ▸ mem) with rfl | later
      · exact .inr (.inr (by simp))
      · exact .inl ((h.head_apart head).2 op later)
    · simp
    · exact h.passing i
    · simp [Store.protects]

/-- A beginning operation leaves every VALID slot alone. -/
theorem Store.sound.beginOp_keeps {st : Store} {b : Nat} (h : st.sound b) {k : Fin 32} (valid : (st.record k).state = .valid) :
    st.beginOp.record k = st.record k ∧ st.beginOp.cell k = st.cell k := by
  have apart {op : NvOp} {rest : List NvOp} (head : st.ops = op :: rest) : k ≠ op.slot := fun own =>
    (Store.opFits_state (h.fit op (head ▸ List.mem_cons_self))).1 (own ▸ valid)
  rcases st.beginOp_cases with same | ⟨i, p, rest, head, begun⟩ | ⟨i, rest, head, begun⟩
  · simp [same]
  · rw [begun]
    exact Store.alters_setCell _ _ _ k (apart head)
  · rw [begun]
    exact Store.alters_setRecord _ _ _ k (apart head)

/-! ### A slot reserved, retired, written, erased (R106, R107, R109, R110) -/

/-- The queue's slots stay apart when an operation joins on a slot that is VALID or EMPTY. -/
theorem Store.sound.slots_append {st : Store} {b : Nat} (h : st.sound b) {op : NvOp}
    (free : (st.record op.slot).state = .valid ∨ (st.record op.slot).state = .empty) :
    ((st.ops ++ [op]).map NvOp.slot).Nodup ∧ ∀ q ∈ st.ops, q.slot ≠ op.slot := by
  have apart : ∀ q ∈ st.ops, q.slot ≠ op.slot := fun q mem own => by
    obtain ⟨notValid, notEmpty⟩ := Store.opFits_state (h.fit q mem)
    rw [own] at notValid notEmpty
    tauto
  refine ⟨?_, apart⟩
  rw [List.map_append, List.nodup_append]
  refine ⟨h.slots, List.nodup_singleton _, fun a queued c added => ?_⟩
  obtain ⟨q, mem, rfl⟩ := List.mem_map.1 queued
  rw [List.map_singleton, List.mem_singleton] at added
  exact added ▸ apart q mem

/-- A VALID slot that is marked, with its erase queued. -/
theorem Store.sound.marked {st : Store} {b : Nat} (h : st.sound b) {i : Fin 32} (valid : (st.record i).state = .valid) :
    Store.sound { st.marked i with ops := st.ops ++ [.erase i] } b := by
  obtain ⟨slots, apart⟩ := h.slots_append (op := .erase i) (.inl valid)
  obtain ⟨r, holds, complete, -, -⟩ := h.whole i valid
  have record : (st.marked i).record i = { st.record i with state := .retired } := by simp [Store.marked_record]
  have cell : (st.marked i).cell i = some { r with retired := true } := by
    simp [Store.marked, holds]
  refine h.alter (i := i) (fun j other => ⟨?_, st.marked_cell_other other.symm⟩) slots (fun op mem => ?_) (fun still => ?_)
    (fun q found _ => ?_) (fun id own => ?_)
  · exact (st.marked_record i j).trans (if_neg other.symm)
  · rcases List.mem_append.1 mem with old | new
    · exact .inl ⟨old, apart op old⟩
    · obtain rfl := List.mem_singleton.1 new
      exact .inr (.inl (congrArg SlotRecord.state record))
  · exact absurd ((congrArg SlotRecord.state record).symm.trans still) nofun
  · obtain rfl := Option.some.inj (cell.symm.trans found)
    exact h.passing i r holds complete
  · exact absurd (own.1.imp (congrArg SlotRecord.state record).symm.trans (congrArg SlotRecord.state record).symm.trans) (by simp)

theorem Store.sound.retire {st : Store} {b : Nat} (h : st.sound b) {i : Fin 32} (valid : (st.record i).state = .valid) :
    (st.retire i).sound b :=
  (h.marked valid).beginOp

/-- The lowest EMPTY slot, reserved, with its program queued. -/
theorem Store.sound.reserved {st : Store} {b : Nat} (h : st.sound b) {u : Buffer} (passes : u.pattern.passes)
    (free : st.protectedCopy b u.id = false) {i : Fin 32} (found : st.emptySlot = some i) :
    Store.sound { st.reserved i u with ops := st.ops ++ [.program i u.pattern] } b := by
  have empty : (st.record i).state = .empty := by simpa using List.find?_some found
  obtain ⟨slots, apart⟩ := h.slots_append (op := .program i u.pattern) (.inr empty)
  have own := st.reserved_record i i u
  rw [if_pos rfl] at own
  refine h.alter (i := i) (fun j other => ⟨?_, rfl⟩) slots (fun op mem => ?_) (fun valid => ?_) (h.passing i)
    (fun id holds j _ old => ?_)
  · exact (st.reserved_record i j u).trans (if_neg other.symm)
  · rcases List.mem_append.1 mem with old | new
    · exact .inl ⟨old, apart op old⟩
    · obtain rfl := List.mem_singleton.1 new
      exact .inr ⟨congrArg SlotRecord.state own, congrArg SlotRecord.id own, passes⟩
  · exact absurd ((congrArg SlotRecord.state own).symm.trans valid) nofun
  · obtain ⟨-, hasId, inside⟩ := holds
    obtain rfl : u.id = id := Option.some.inj ((congrArg SlotRecord.id own).symm.trans hasId)
    exact absurd ((st.protectedCopy_iff b u.id).2 ⟨inside, j, old.1, old.2.1⟩) (by simp [free])

theorem Store.sound.reserve {st : Store} {b : Nat} (h : st.sound b) {u : Buffer} (passes : u.pattern.passes)
    (free : st.protectedCopy b u.id = false) : (st.reserve u).sound b := by
  cases found : st.emptySlot with
  | none =>
    unfold Store.reserve
    rw [found]
    exact h.congr rfl rfl rfl
  | some i =>
    rw [Store.reserve_of_emptySlot found]
    exact (h.reserved passes free found).beginOp

/-- The store after a program's completion, before the older copy is retired (R109). -/
def Store.completed (st : Store) (i : Fin 32) (p : Pattern) : Store :=
  Store.setRecord
    (Store.setCell (Store.dropOp { st with counter := some st.nextVersion }) i
      (some { pattern := p, version := st.nextVersion, marker := true, checkGood := true, retired := false }))
    i { state := .valid, id := some p.id, version := some st.nextVersion, count := some p.entries.length }

/-- Another VALID slot of the id, which a program's completion retires (R109). -/
def Store.olderCopy (st : Store) (i : Fin 32) (id : Nat) : Option (Fin 32) :=
  allSlots.find? fun j => decide (j ≠ i) && decide ((st.record j).state = .valid) && decide ((st.record j).id = some id)

theorem Store.completeProgram_eq (st : Store) (i : Fin 32) (p : Pattern) :
    st.completeProgram i p =
      match st.olderCopy i p.id with
      | some j => { (st.completed i p).marked j with ops := (st.completed i p).ops ++ [.erase j] }
      | none => st.completed i p := by
  rfl

theorem Store.olderCopy_some {st : Store} {i j : Fin 32} {id : Nat} (found : st.olderCopy i id = some j) :
    j ≠ i ∧ (st.record j).state = .valid ∧ (st.record j).id = some id := by
  simpa [and_assoc] using List.find?_some found

theorem Store.olderCopy_none {st : Store} {i j : Fin 32} {id : Nat} (none : st.olderCopy i id = none) (other : j ≠ i)
    (valid : (st.record j).state = .valid) : (st.record j).id ≠ some id := by
  rw [Store.olderCopy, find?_allSlots, Fin.find?_eq_none_iff] at none
  simpa [other, valid] using none j

@[simp] theorem Store.completed_record (st : Store) (i j : Fin 32) (p : Pattern) :
    (st.completed i p).record j =
      if i = j then { state := .valid, id := some p.id, version := some st.nextVersion, count := some p.entries.length }
      else st.record j :=
  Store.setRecord_record ..

@[simp] theorem Store.completed_cell (st : Store) (i j : Fin 32) (p : Pattern) :
    (st.completed i p).cell j =
      if i = j then some { pattern := p, version := st.nextVersion, marker := true, checkGood := true, retired := false }
      else st.cell j :=
  Store.setCell_cell ..

theorem Store.completed_alters (st : Store) (i : Fin 32) (p : Pattern) : st.alters (st.completed i p) i := by
  intro j other
  simp [other.symm]

section
variable {st : Store} {b : Nat} {i : Fin 32} {p : Pattern} {rest : List NvOp}

theorem Store.completed_ops (head : st.ops = .program i p :: rest) : (st.completed i p).ops = rest := by
  simp [Store.completed, Store.dropOp, head]

theorem Store.sound.completed (h : st.sound b) (head : st.ops = .program i p :: rest) : (st.completed i p).sound b := by
  obtain ⟨programming, hasId, passes⟩ := h.fit _ (head ▸ List.mem_cons_self)
  obtain ⟨slots, apart⟩ := h.head_apart head
  have ops := Store.completed_ops head
  refine h.alter (st.completed_alters i p) (by rwa [ops]) (fun op mem => .inl (apart op (ops ▸ mem))) ?_ ?_ ?_
  · simp [NvRecord.complete]
  · simpa using fun _ => passes
  · intro id own j other holds
    obtain ⟨-, same, inside⟩ := own
    obtain rfl : p.id = id := by simpa using same
    exact other (h.single j i p.id holds ⟨.inr programming, hasId, inside⟩)

theorem Store.sound.completeProgram (h : st.sound b) (head : st.ops = .program i p :: rest) :
    (st.completeProgram i p).sound b := by
  have written := h.completed head
  rw [Store.completeProgram_eq]
  cases older : st.olderCopy i p.id with
  | none => exact written
  | some j =>
    obtain ⟨other, valid, -⟩ := Store.olderCopy_some older
    exact written.marked (by simp [other.symm, valid])

/-- A program's completion leaves every VALID slot of a protected id alone. -/
theorem Store.sound.completeProgram_keeps (h : st.sound b) (head : st.ops = .program i p :: rest) {k : Fin 32} {id : Nat}
    (valid : (st.record k).state = .valid) (hasId : (st.record k).id = some id) (inside : id ≤ b) :
    (st.completeProgram i p).record k = st.record k ∧ (st.completeProgram i p).cell k = st.cell k := by
  obtain ⟨programming, pId, -⟩ := h.fit _ (head ▸ List.mem_cons_self)
  have notOwn : k ≠ i := fun own => absurd ((own ▸ valid).symm.trans programming) nofun
  obtain ⟨record, cell⟩ := st.completed_alters i p k notOwn
  rw [Store.completeProgram_eq]
  cases older : st.olderCopy i p.id with
  | none => exact ⟨record, cell⟩
  | some j =>
    have notOlder : j ≠ k := fun same => by
      obtain ⟨-, -, jId⟩ := Store.olderCopy_some older
      obtain rfl : id = p.id := Option.some.inj (hasId.symm.trans (same ▸ jId))
      exact notOwn (h.single k i p.id ⟨.inl valid, hasId, inside⟩ ⟨.inr programming, pId, inside⟩)
    exact ⟨((Store.marked_record ..).trans (if_neg notOlder)).trans record, (Store.marked_cell_other _ notOlder).trans cell⟩

end

theorem Store.sound.erased {st : Store} {b : Nat} (h : st.sound b) (i : Fin 32) {t : Store}
    (table : t.table = ((st.setCell i none).setRecord i SlotRecord.cleared).table)
    (nv : t.nv = ((st.setCell i none).setRecord i SlotRecord.cleared).nv) (slots : (t.ops.map NvOp.slot).Nodup)
    (apart : ∀ op ∈ t.ops, op ∈ st.ops ∧ op.slot ≠ i) : t.sound b := by
  have record (j : Fin 32) : t.record j = if i = j then SlotRecord.cleared else st.record j := by
    rw [Store.record, table]
    exact Store.setRecord_record ..
  have cell (j : Fin 32) : t.cell j = if i = j then none else st.cell j := by
    rw [Store.cell_congr nv]
    exact Store.setCell_cell ..
  refine h.alter (i := i) (fun j other => by simp [record, cell, other.symm]) slots (fun op mem => .inl (apart op mem)) ?_ ?_ ?_
  · simp [record, SlotRecord.cleared]
  · simp [cell]
  · simp [Store.protects, record, SlotRecord.cleared]

theorem Store.sound.completeErase {st : Store} {b : Nat} (h : st.sound b) {i : Fin 32} {rest : List NvOp}
    (head : st.ops = .erase i :: rest) : (st.completeErase i).sound b := by
  obtain ⟨slots, apart⟩ := h.head_apart head
  have ops : (st.completeErase i).ops = rest := by simp [Store.completeErase, Store.dropOp, head]
  exact h.erased i rfl rfl (ops ▸ slots) (fun op mem => apart op (ops ▸ mem))

theorem Store.completeErase_alters (st : Store) (i : Fin 32) : st.alters (st.completeErase i) i := fun _ other =>
  ⟨(Store.setRecord_record ..).trans (if_neg other.symm), (Store.setCell_cell ..).trans (if_neg other.symm)⟩

end Sys2Proof.Machine
end

section
/-! SUPPORT. The start-up scan's table, what stopping the array leaves, and the store's invariants through every command (R109, R116 to
R118). -/

namespace Sys2Proof.Machine

/-! ### The scan's table (R117, R118) -/

theorem Store.candidate_eq_some {st : Store} {i : Fin 32} {r : NvRecord} :
    st.candidate i = some r ↔ st.cell i = some r ∧ r.complete = true ∧ r.retired = false := by
  unfold Store.candidate
  cases st.cell i <;> grind

theorem any_allSlots {p : Fin 32 → Bool} : allSlots.any p = true ↔ ∃ j, p j = true := by
  rw [List.any_eq_true]
  exact exists_congr fun j => and_iff_right (List.mem_finRange j)

theorem Store.kept_eq_some {st : Store} {i : Fin 32} {r : NvRecord} :
    st.kept i = some r ↔ st.candidate i = some r ∧ ∀ j, st.outranks i r j = false := by
  unfold Store.kept
  cases st.candidate i with
  | none => simp
  | some q =>
    by_cases beaten : allSlots.any (st.outranks i q) = true
    · obtain ⟨j, outranked⟩ := any_allSlots.1 beaten
      simp only [if_pos beaten]
      refine ⟨nofun, fun ⟨same, unbeaten⟩ => ?_⟩
      obtain rfl := Option.some.inj same
      exact absurd outranked (by simp [unbeaten j])
    · simp only [if_neg beaten]
      rw [any_allSlots, not_exists] at beaten
      refine ⟨fun same => ⟨same, fun j => ?_⟩, And.left⟩
      obtain rfl := Option.some.inj same
      simpa using beaten j

theorem Store.outranks_iff {st : Store} {i j : Fin 32} {r : NvRecord} :
    st.outranks i r j = true ↔
      ∃ q, st.candidate j = some q ∧ q.pattern.id = r.pattern.id ∧ (r.version < q.version ∨ q.version = r.version ∧ j < i) := by
  unfold Store.outranks
  cases st.candidate j <;> simp

/-- Of two candidates of one id, one outranks the other. -/
theorem Store.kept_unique {st : Store} {i j : Fin 32} {r q : NvRecord} (hi : st.kept i = some r) (hj : st.kept j = some q)
    (same : q.pattern.id = r.pattern.id) : i = j := by
  obtain ⟨ci, noneOverI⟩ := Store.kept_eq_some.1 hi
  obtain ⟨cj, noneOverJ⟩ := Store.kept_eq_some.1 hj
  have jNot := noneOverI j
  have iNot := noneOverJ i
  rw [← Bool.not_eq_true, Store.outranks_iff] at jNot iNot
  by_contra apart
  rcases Nat.lt_trichotomy r.version q.version with lower | equal | higher
  · exact jNot ⟨q, cj, same, .inl lower⟩
  · rcases lt_or_gt_of_ne apart with before | after
    · exact iNot ⟨r, ci, same.symm, .inr ⟨equal, before⟩⟩
    · exact jNot ⟨q, cj, same, .inr ⟨equal.symm, after⟩⟩
  · exact iNot ⟨r, ci, same.symm, .inl higher⟩

/-- The store after the scan's reading. -/
def Store.scanned (st : Store) : Store := { st with table := st.scanTable, counter := some st.scanCounter }

theorem Store.scanned_record (st : Store) (i : Fin 32) :
    st.scanned.record i =
      match st.kept i with
      | some r => { state := .valid, id := some r.pattern.id, version := some r.version, count := some r.pattern.entries.length }
      | none =>
        match st.cell i with
        | some r => { state := .erasing, id := some r.pattern.id, version := some r.version, count := some r.pattern.entries.length }
        | none => SlotRecord.cleared :=
  Vector.getElem_ofFn i.isLt

/-- A slot stays VALID when it is kept, and no slot is PROGRAMMING. -/
theorem Store.scanned_valid {st : Store} {i : Fin 32}
    (held : (st.scanned.record i).state = .valid ∨ (st.scanned.record i).state = .programming) :
    ∃ r, st.kept i = some r ∧ (st.scanned.record i).id = some r.pattern.id := by
  rw [Store.scanned_record] at *
  cases kept : st.kept i with
  | some r => exact ⟨r, rfl, rfl⟩
  | none => cases cell : st.cell i <;> simp [kept, cell, SlotRecord.cleared] at held

theorem Store.sound.scanned {st : Store} {b : Nat} (h : st.sound b) (noOps : st.ops = []) : st.scanned.sound b where
  slots := by simp [Store.scanned, noOps]
  fit := by simp [Store.scanned, noOps]
  whole i valid := by
    obtain ⟨r, kept, id⟩ := Store.scanned_valid (.inl valid)
    obtain ⟨cell, complete, retired⟩ := Store.candidate_eq_some.1 (Store.kept_eq_some.1 kept).1
    exact ⟨r, cell, complete, retired, id⟩
  passing := h.passing
  single i j id hi hj := by
    obtain ⟨r, keptI, idI⟩ := Store.scanned_valid hi.1
    obtain ⟨q, keptJ, idJ⟩ := Store.scanned_valid hj.1
    exact Store.kept_unique keptI keptJ (Option.some.inj (idJ.symm.trans (hj.2.1.trans (hi.2.1.symm.trans idI))))

/-! ### What a reset leaves (R116, R118, R119) -/

theorem Store.reset_record (nv : Vector (Option NvRecord) 32) (counter : Option Nat) (i : Fin 32) :
    (Store.reset nv counter).record i = SlotRecord.cleared := by
  simp [Store.record, Store.reset]

theorem Store.reset_sound {st : Store} (passing : ∀ (i : Fin 32) (r : NvRecord), st.cell i = some r → r.complete = true → r.pattern.passes)
    (counter : Option Nat) (b : Nat) : (Store.reset st.nv counter).sound b where
  slots := List.nodup_nil
  fit := nofun
  whole i valid := by simp [Store.reset_record, SlotRecord.cleared] at valid
  passing := passing
  single i j id hi := by simp [Store.protects, Store.reset_record, SlotRecord.cleared] at hi

theorem Store.spoilt_passing {st : Store} {b : Nat} (h : st.sound b) (k i : Fin 32) (r : NvRecord)
    (holds : (st.setCell k ((st.cell k).map fun r => { r with checkGood := false })).cell i = some r) (complete : r.complete = true) :
    r.pattern.passes := by
  rw [Store.setCell_cell] at holds
  split at holds
  · obtain ⟨q, -, rfl⟩ := Option.map_eq_some_iff.1 holds
    simp [NvRecord.complete] at complete
  · exact h.passing i r holds complete

/-- The pattern of a stopped program passes, as every pattern of a complete slot does. -/
theorem Store.tearOp_passing {st : Store} {b : Nat} (h : st.sound b) (w : NvTear) (i : Fin 32) (r : NvRecord)
    (holds : (st.tearOp w).cell i = some r) (complete : r.complete = true) : r.pattern.passes := by
  unfold Store.tearOp at holds
  split at holds
  · next j p rest _ head =>
    obtain ⟨-, -, passes⟩ : st.opFits (.program j p) := h.fit _ (head ▸ List.mem_cons_self)
    rw [Store.tearProgram_cell] at holds
    split_ifs at holds
    · exact Option.some.inj holds ▸ passes
    · obtain ⟨q, old, rfl⟩ := Option.map_eq_some_iff.1 holds
      exact h.passing i q old complete
    · exact Option.some.inj holds ▸ passes
    · exact h.passing i r holds complete
  · split at holds
    · exact h.passing i r holds complete
    · exact Store.spoilt_passing h _ i r holds complete
  · exact h.passing i r holds complete

theorem State.stopArray_passing {s : State} {b : Nat} (h : s.store.sound b) (i : Fin 32) (r : NvRecord)
    (holds : s.stopArray.store.cell i = some r) (complete : r.complete = true) : r.pattern.passes := by
  unfold State.stopArray at holds
  split at holds
  · exact Store.tearOp_passing h _ i r holds complete
  · split at holds
    · exact Store.spoilt_passing h _ i r holds complete
    · exact h.passing i r holds complete

/-! ### The store through a move -/

theorem Store.endService_sound {st : Store} {b : Nat} (h : st.sound b) : st.endService.sound b := by
  have begun := Store.sound.beginOp (h.congr (t := { st with serving := none }) rfl rfl rfl)
  unfold Store.endService
  exact begun.congr (by simp) (by simp) (by simp)

theorem State.passes_of_closeCheck {s : State} {u : Buffer} {pattern count : Nat} (passes : s.closeCheck u pattern count = none) :
    u.pattern.passes ∧ s.store.protectedCopy s.cfg.protectBoundary u.id = false := by
  unfold State.closeCheck at passes
  split_ifs at passes with _ structured long guarded
  exact ⟨⟨eq_true_of_ne_false structured, eq_true_of_ne_false long⟩, eq_false_of_ne_true guarded⟩

theorem State.StoreMove.sound {s : State} {st : Store} (move : s.StoreMove st) {b : Nat} (boundary : s.cfg.protectBoundary = b)
    (h : s.store.sound b) : st.sound b := by
  cases move with
  | port t same => exact h.congr same.2.2.1 same.1 same.2.2.2.2
  | serviceEnds => exact Store.endService_sound h
  | buffer u => exact h.congr rfl rfl rfl
  | reserve u pattern count passes _ =>
    obtain ⟨patternPasses, free⟩ := State.passes_of_closeCheck passes
    exact h.reserve patternPasses (boundary ▸ free)
  | retire i id _ valid _ => exact h.retire (Store.validSlot_valid valid).1
  | programCompletes i p rest head => exact (h.completeProgram head).beginOp
  | eraseCompletes i rest head => exact (h.completeErase head).beginOp

/-- A move of the store leaves every VALID slot of a protected id alone (R105). -/
theorem State.StoreMove.keeps {s : State} {st : Store} (move : s.StoreMove st) (h : s.store.sound s.cfg.protectBoundary) {k : Fin 32}
    {id : Nat} (valid : (s.store.record k).state = .valid) (hasId : (s.store.record k).id = some id)
    (inside : id ≤ s.cfg.protectBoundary) : st.record k = s.store.record k ∧ st.cell k = s.store.cell k := by
  cases move with
  | port t same => exact ⟨congrArg (fun v : Vector SlotRecord 32 => v[k.val]) same.2.2.1, Store.cell_congr same.1 k⟩
  | serviceEnds =>
    obtain ⟨record, cell⟩ := (h.congr (t := { s.store with serving := none }) rfl rfl rfl).beginOp_keeps (k := k) valid
    obtain ⟨nv, -, table, -⟩ := Store.portGoOn_same (Store.beginOp { s.store with serving := none })
    exact ⟨(congrArg (fun v : Vector SlotRecord 32 => v[k.val]) table).trans record, (Store.cell_congr nv k).trans cell⟩
  | buffer u => exact ⟨rfl, rfl⟩
  | reserve u pattern count passes _ =>
    obtain ⟨patternPasses, free⟩ := State.passes_of_closeCheck passes
    cases found : s.store.emptySlot with
    | none =>
      unfold Store.reserve
      rw [found]
      exact ⟨rfl, rfl⟩
    | some i =>
      have empty : (s.store.record i).state = .empty := by simpa using List.find?_some found
      have record : (s.store.reserved i u).record k = s.store.record k :=
        (Store.reserved_record ..).trans (if_neg fun own => absurd ((own ▸ empty).symm.trans valid) nofun)
      rw [Store.reserve_of_emptySlot found]
      obtain ⟨begunRecord, begunCell⟩ := (h.reserved patternPasses free found).beginOp_keeps (k := k)
        ((congrArg SlotRecord.state record).trans valid)
      exact ⟨begunRecord.trans record, begunCell⟩
  | retire i other unprotected found _ =>
    obtain ⟨slotValid, slotId⟩ := Store.validSlot_valid found
    have apart : i ≠ k := fun own => by
      obtain rfl : other = id := Option.some.inj ((own ▸ slotId).symm.trans hasId)
      omega
    have record := (s.store.marked_record i k).trans (if_neg apart)
    obtain ⟨begunRecord, begunCell⟩ := (h.marked slotValid).beginOp_keeps (k := k)
      ((congrArg SlotRecord.state record).trans valid)
    exact ⟨begunRecord.trans record, begunCell.trans (s.store.marked_cell_other apart)⟩
  | programCompletes i p rest head =>
    obtain ⟨record, cell⟩ := h.completeProgram_keeps head valid hasId inside
    obtain ⟨begunRecord, begunCell⟩ := (h.completeProgram head).beginOp_keeps (record ▸ valid)
    exact ⟨begunRecord.trans record, begunCell.trans cell⟩
  | eraseCompletes i rest head =>
    have apart : k ≠ i := fun own => (Store.opFits_state (h.fit _ (head ▸ List.mem_cons_self))).1 (own ▸ valid)
    obtain ⟨record, cell⟩ := s.store.completeErase_alters i k apart
    obtain ⟨begunRecord, begunCell⟩ := (h.completeErase head).beginOp_keeps (record ▸ valid)
    exact ⟨begunRecord.trans record, begunCell.trans cell⟩

/-- Outside DONE, where no operation waits, a move changes no record. -/
theorem State.StoreMove.idle {s : State} {st : Store} (move : s.StoreMove st) (phase : s.boot.phase ≠ .done)
    (noOps : s.store.ops = []) : st.ops = [] ∧ ∀ i, st.record i = s.store.record i := by
  cases move with
  | port t same => exact ⟨same.2.2.2.2.trans noOps, fun i => congrArg (fun v : Vector SlotRecord 32 => v[i.val]) same.2.2.1⟩
  | serviceEnds =>
    rw [Store.endService, Store.beginOp_of_noOps (st := { s.store with serving := none }) noOps]
    obtain ⟨-, -, table, -, ops, -⟩ := Store.portGoOn_same { s.store with serving := none }
    exact ⟨ops.trans noOps, fun i => congrArg (fun v : Vector SlotRecord 32 => v[i.val]) table⟩
  | buffer u => exact ⟨noOps, fun _ => rfl⟩
  | reserve u pattern count passes done => exact absurd done phase
  | retire i id _ valid done => exact absurd done phase
  | programCompletes i p rest head => exact nomatch noOps.symm.trans head
  | eraseCompletes i rest head => exact nomatch noOps.symm.trans head

/-! ### The invariants -/

def stableStore : Stable fun s => s.store.stands s.boot s.cfg.protectBoundary where
  store s st move h := by
    refine ⟨fun idle => ?_, fun idle noListen noScan => ?_, move.sound rfl h.sound⟩
    · exact (move.idle idle (h.ready idle)).1
    · exact fun i => (congrArg SlotRecord.state ((move.idle idle (h.ready idle)).2 i)).trans (h.early idle noListen noScan i)
  boot s b move h := by
    cases move with
    | sampled straps inReset =>
      exact ⟨fun _ => h.ready (by simp [inReset]), fun _ _ _ => h.early (by simp [inReset]) (by simp [inReset]) (by simp [inReset]),
        h.sound⟩
    | noIndex => exact ⟨h.ready, h.early, h.sound⟩
    | stops before =>
      have phase : s.boot.phase ≠ .done ∧ s.boot.phase ≠ .listen ∧ s.boot.phase ≠ .scan := by rcases before with p | p <;> simp [p]
      exact ⟨fun _ => h.ready phase.1, fun _ _ _ => h.early phase.1 phase.2.1 (.inl phase.2.2), h.sound⟩
    | listens scan => exact ⟨fun _ => h.ready (by simp [scan]), fun _ notListen => absurd rfl notListen, h.sound⟩
    | done listen => exact ⟨fun idle => absurd rfl idle, fun idle => absurd rfl idle, h.sound⟩
  scanRead s scan _ h := by
    have noOps := h.ready (by simp [scan])
    refine ⟨fun _ => noOps, fun _ _ noScan => ?_, h.sound.scanned noOps⟩
    exact absurd scan (noScan.resolve_right nofun)
  scanErase s i rest scan read _ h := by
    have noOps := h.ready (by simp [scan])
    refine ⟨fun _ => noOps, fun _ _ noScan => ?_, h.sound.erased i rfl rfl ?_ ?_⟩
    · exact (noScan.elim (fun p => p scan) fun p => nomatch read.symm.trans p).elim
    · exact h.sound.slots
    · intro op mem
      exact nomatch (show op ∈ [] from noOps ▸ mem)

def endsStore : Ends (fun s => s.store.stands s.boot s.cfg.protectBoundary) fun s => s.store.stands s.boot s.cfg.protectBoundary where
  reset s _ _ _ h :=
    ⟨fun _ => rfl, fun _ _ _ i => congrArg SlotRecord.state (Store.reset_record _ _ i),
      Store.reset_sound (State.stopArray_passing h.sound) _ _⟩
  configGood s _ c read _ h := by
    have noOps := h.ready (by simp [read])
    have early := h.early (by simp [read]) (by simp [read]) (by simp [read])
    refine ⟨fun _ => noOps, fun _ _ _ => early, ⟨h.sound.slots, h.sound.fit, h.sound.whole, h.sound.passing, ?_⟩⟩
    rintro i j id ⟨held, -⟩
    exact absurd held (by simp [show (State.configGood s c).store.record i = s.store.record i from rfl, early i])
  speeds _ _ := stableStore.afterSpeeds _

/-! ### One copy (R109) -/

theorem Store.oneCopy.fewer {st t : Store} (h : st.oneCopy)
    (fewer : ∀ j, (t.record j).state = .valid → t.record j = st.record j) : t.oneCopy := by
  intro i j hi hj
  have recordI := fewer i hi
  have recordJ := fewer j hj
  rw [recordI] at hi ⊢
  rw [recordJ] at hj ⊢
  exact h i j hi hj

/-- One copy stays one when a slot becomes VALID whose id no other VALID slot holds. -/
theorem Store.oneCopy.adds {st t : Store} (h : st.oneCopy) (i : Fin 32)
    (others : ∀ j, j ≠ i → (t.record j).state = .valid → t.record j = st.record j ∧ (t.record j).id ≠ (t.record i).id) :
    t.oneCopy := by
  intro j k hj hk same hasId
  by_cases jOwn : j = i <;> by_cases kOwn : k = i
  · exact jOwn.trans kOwn.symm
  · exact absurd (same.symm.trans (congrArg (fun l => (t.record l).id) jOwn)) (others k kOwn hk).2
  · exact absurd (same.trans (congrArg (fun l => (t.record l).id) kOwn)) (others j jOwn hj).2
  · have recordJ := (others j jOwn hj).1
    have recordK := (others k kOwn hk).1
    rw [recordJ] at hj same hasId
    rw [recordK] at hk same
    exact h j k hj hk same hasId

theorem Store.beginOp_fewer (st : Store) (j : Fin 32) (valid : (st.beginOp.record j).state = .valid) :
    st.beginOp.record j = st.record j := by
  rcases st.beginOp_cases with same | ⟨i, p, rest, head, begun⟩ | ⟨i, rest, head, begun⟩
  · rw [same]
  · rw [begun]
    rfl
  · rw [begun, Store.setRecord_record] at valid ⊢
    split_ifs at valid ⊢
    rfl

theorem Store.oneCopy.beginOp {st : Store} (h : st.oneCopy) : st.beginOp.oneCopy := h.fewer st.beginOp_fewer

theorem Store.oneCopy.marked {st : Store} (h : st.oneCopy) (i : Fin 32) : (st.marked i).oneCopy :=
  h.fewer fun j valid => by
    rw [Store.marked_record] at valid ⊢
    split_ifs at valid ⊢
    rfl

theorem Store.oneCopy.reserve {st : Store} (h : st.oneCopy) (u : Buffer) : (st.reserve u).oneCopy := by
  cases found : st.emptySlot with
  | none =>
    unfold Store.reserve
    rw [found]
    exact h
  | some i =>
    rw [Store.reserve_of_emptySlot found]
    refine Store.oneCopy.beginOp (h.fewer fun j valid => ?_)
    have record := st.reserved_record i j u
    split_ifs at record
    · exact absurd ((congrArg SlotRecord.state record).symm.trans valid) nofun
    · exact record

theorem Store.oneCopy.completeProgram {st : Store} (h : st.oneCopy) (i : Fin 32) (p : Pattern) : (st.completeProgram i p).oneCopy := by
  rw [Store.completeProgram_eq]
  cases older : st.olderCopy i p.id with
  | none =>
    refine h.adds i fun j other valid => ?_
    simp only [Store.completed_record, other.symm, if_false, if_true] at valid ⊢
    exact ⟨trivial, Store.olderCopy_none older other valid⟩
  | some k =>
    obtain ⟨kOther, kValid, kId⟩ := Store.olderCopy_some older
    have record (j : Fin 32) : Store.record { (st.completed i p).marked k with ops := (st.completed i p).ops ++ [.erase k] } j = _ :=
      (st.completed i p).marked_record k j
    refine h.adds i fun j other valid => ?_
    rw [record] at valid ⊢
    split_ifs at valid ⊢ with own
    simp only [record, Store.completed_record, other.symm, kOther, if_false, if_true] at valid ⊢
    exact ⟨trivial, fun same => own (h k j kValid valid (kId.trans same.symm) (by simp [kId]))⟩

theorem Store.oneCopy.cleared {st : Store} (h : st.oneCopy) (i : Fin 32) : (st.setRecord i SlotRecord.cleared).oneCopy :=
  h.fewer fun j valid => by
    rw [Store.setRecord_record] at valid ⊢
    split_ifs at valid ⊢
    · exact nomatch valid
    · rfl

theorem State.StoreMove.oneCopy {s : State} {st : Store} (move : s.StoreMove st) (h : s.store.oneCopy) : st.oneCopy := by
  cases move with
  | port t same => exact h.fewer fun j _ => congrArg (fun v : Vector SlotRecord 32 => v[j.val]) same.2.2.1
  | serviceEnds =>
    obtain ⟨-, -, table, -⟩ := Store.portGoOn_same (Store.beginOp { s.store with serving := none })
    have begun : (Store.beginOp { s.store with serving := none }).oneCopy := Store.oneCopy.beginOp h
    exact begun.fewer fun j _ => congrArg (fun v : Vector SlotRecord 32 => v[j.val]) table
  | buffer u => exact h
  | reserve u pattern count passes _ => exact h.reserve u
  | retire i id _ valid _ => exact Store.oneCopy.beginOp (h.marked i)
  | programCompletes i p rest head => exact (h.completeProgram i p).beginOp
  | eraseCompletes i rest head => exact Store.oneCopy.beginOp (Store.oneCopy.cleared h i)

theorem Store.scanned_oneCopy (st : Store) : st.scanned.oneCopy := by
  intro i j hi hj same _
  obtain ⟨r, keptI, idI⟩ := Store.scanned_valid (.inl hi)
  obtain ⟨q, keptJ, idJ⟩ := Store.scanned_valid (.inl hj)
  exact Store.kept_unique keptI keptJ (Option.some.inj (idJ.symm.trans (same.symm.trans idI)))

def stableOneCopy : Stable fun s => s.store.oneCopy where
  store _ _ move h := move.oneCopy h
  scanRead s _ _ _ := s.store.scanned_oneCopy
  scanErase s i _ _ _ _ h := Store.oneCopy.cleared (st := s.store.setCell i none) h i

def endsOneCopy : Ends (fun s => s.store.oneCopy) fun s => s.store.oneCopy where
  reset s _ _ _ _ := fun i _ valid => by simp [State.volatileReset, Store.reset_record, SlotRecord.cleared] at valid
  speeds _ _ := stableOneCopy.afterSpeeds _

/-! ### A protected slot (R105) -/

/-- In DONE, with a sound store, a slot holds this record and this cell. -/
structure Store.keepsSlot (st : Store) (boot : Boot) (b boundary : Nat) (k : Fin 32) (r : SlotRecord) (c : Option NvRecord) : Prop where
  done : boot.phase = .done
  boundary : b = boundary
  sound : st.sound b
  slot : st.record k = r ∧ st.cell k = c

section
variable {k : Fin 32} {r : SlotRecord} {c : Option NvRecord} {b id : Nat}

def stableProtected (valid : r.state = .valid) (hasId : r.id = some id) (inside : id ≤ b) :
    Stable fun s => s.store.keepsSlot s.boot s.cfg.protectBoundary b k r c where
  store s st move h := by
    obtain ⟨done, boundary, sound, record, cell⟩ := h
    subst record
    obtain ⟨keepsRecord, keepsCell⟩ := move.keeps sound valid hasId (boundary ▸ inside)
    exact ⟨done, boundary, move.sound rfl sound, keepsRecord, keepsCell.trans cell⟩
  boot s b' move h := by
    have done := h.done
    cases move <;> simp_all
  scanRead s scan _ h := absurd (scan.symm.trans h.done) nofun
  scanErase s _ _ scan _ _ h := absurd (scan.symm.trans h.done) nofun

def endsProtected :
    Ends (fun s => s.store.keepsSlot s.boot s.cfg.protectBoundary b k r c) fun s =>
      s.boot.phase = .done → s.store.record k = r ∧ s.store.cell k = c where
  stays _ h _ := h.slot
  reset _ _ _ notDone _ done := absurd done notDone
  configGood s _ _ read _ h := absurd (read.symm.trans h.done) nofun
  forward _ _ h _ := h.slot
  speeds _ _ h := by simpa using h
  handoffWaits _ _ _ _ h _ _ _ _ _ := h.slot
  markWaits _ _ _ h _ _ _ _ := h.slot

end

/-- Settles O60: an operation of the FIFO works on a slot that is not VALID, a completed program retires the one other copy of its id,
and PAT_CLOSE and PAT_ERASE keep off the protected ids. -/
theorem stepsKeepOneCopyOfEachPattern : Obligations.StepsKeepOneCopyOfEachPattern := by
  refine ⟨fun _ _ h taken => stableOneCopy.step endsOneCopy (fun _ _ h => h) taken h, fun s t h taken => ?_,
    fun s t i id h done taken doneAfter valid hasId inside => ?_⟩
  · rw [State.storeSound_iff] at h ⊢
    exact stableStore.step endsStore (fun _ _ h => h) taken h
  · unfold step at taken
    split at taken
    · exact Host.Outcome.next.inj taken ▸ ⟨rfl, rfl⟩
    · next command rest _ =>
      rw [← after_eq_of_exec taken] at doneAfter ⊢
      exact (stableProtected valid hasId inside).after endsProtected command
        ⟨done, rfl, ((State.storeSound_iff s).1 h).sound, rfl, rfl⟩ doneAfter

end Sys2Proof.Machine
end

section
/-! SUPPORT. The reset state (R17, R41, R48, R73, R94, R119, R153, R155, R169, R182, R198, R204) and the invariants it starts. -/

namespace Sys2Proof.Machine

theorem State.reset_peer (i : BitVec 4) :
    State.reset.line.peer i = { member := false, state := .absent, ageTimer := none, ceiling := none, qOut := none } := by
  simp [LineControl.peer, State.reset, LineControl.reset, Peer.reset]

theorem State.reset_valveLevel (z : Nat) : State.reset.valveLevel z = .undriven := by
  simp [State.valveLevel, State.reset, Steam.reset]

/-- Settles O10. -/
theorem resetStateHoldsTheResetValues : Obligations.ResetStateHoldsTheResetValues := by
  unfold Obligations.ResetStateHoldsTheResetValues
  simp only [State.reset_peer, State.reset_valveLevel, implies_true, true_and]
  and_intros <;> rfl

/-- Settles O53. -/
theorem invariantsHoldAtReset : Obligations.InvariantsHoldAtReset := by
  have noneHeld (nv counter) (i : Fin 32) := congrArg SlotRecord.state (Store.reset_record nv counter i)
  have sound : State.reset.store.sound State.reset.cfg.protectBoundary :=
    Store.reset_sound (st := State.reset.store) (fun i r holds _ => by simp [State.reset, Store.reset, Store.cell] at holds) _ _
  exact ⟨by decide, by decide, List.nodup_nil, List.Pairwise.nil, ⟨Nat.zero_le _, fun _ => ⟨rfl, rfl⟩⟩,
    Splice.reset_sound, nofun, nofun, Sequencer.reset_sound, fun i _ valid => absurd ((noneHeld _ _ i).symm.trans valid) nofun,
    (State.storeSound_iff _).2 ⟨fun _ => rfl, fun _ _ _ => noneHeld _ _, sound⟩⟩

end Sys2Proof.Machine
end

section
/-! SUPPORT. The moves of the line state: what entering a line state, a halt and a latched event do to the line, the zones, the Splice Unit
and the panel at the blade (R37 to R39, R152, R165, R188, R192, R200). -/

namespace Sys2Proof.Machine

/-! ### Events -/

/-- Every event stands in the list of events at its priority. -/
theorem Event.all_getElem (e : Event) : Event.all[e.priority - 1]? = some e := by cases e <;> rfl

theorem Event.priority_bounds (e : Event) : 1 ≤ e.priority ∧ e.priority ≤ 18 := by cases e <;> decide

theorem Event.priority_inj {a b : Event} : a.priority = b.priority ↔ a = b :=
  ⟨fun same => Option.some.inj (a.all_getElem.symm.trans (same ▸ b.all_getElem)), congrArg _⟩

theorem EventLatch.has_set (l : EventLatch) (e e' : Event) : (l.set e).has e' = (l.has e' || decide (e' = e)) := by
  have same : e'.priority - 1 = e.priority - 1 ↔ e' = e := by
    have h := e.priority_bounds
    have h' := e'.priority_bounds
    rw [← Event.priority_inj]
    omega
  have inside : e.priority - 1 < 18 := by
    have h := e.priority_bounds
    omega
  simp only [EventLatch.has, EventLatch.set, Event.bit, BitVec.getLsbD_or, BitVec.getLsbD_twoPow, inside, decide_true, Bool.true_and,
    eq_comm (a := e.priority - 1), same]

theorem EventLatch.has_set_other {l : EventLatch} {e e' : Event} (other : e' ≠ e) : (l.set e).has e' = l.has e' := by
  simp [EventLatch.has_set, other]

theorem EventLatch.anyHalt_iff (l : EventLatch) : l.anyHalt = true ↔ ∃ e : Event, e.isHalt = true ∧ l.has e = true := by
  simp only [EventLatch.anyHalt, List.any_eq_true, Bool.and_eq_true]
  exact exists_congr fun e => and_iff_right (List.mem_of_getElem? e.all_getElem)

/-! ### The panel at the blade given up in HELD (R152) -/

/-- The plan after the current panel is given up: the cause stays with the origin's last created panel when it is newly recorded or
noticed (R93). -/
theorem State.abandonPanel_plan (s : State) (d : Context) (k : RejectCause) (h : s.seq.current = some d) :
    (s.abandonPanel k).plan =
      match s.panel? d.panel with
      | some p => if p.cause = none then s.planAfter d.panel k else s.plan
      | none => if s.isLast then s.plan else s.planAfter d.panel k := by
  cases found : s.panel? d.panel with
  | some p => cases cause : p.cause <;> simp [State.abandonPanel, h, State.condemn, State.setCause, found, cause]
  | none => cases last : s.isLast <;> simp [State.abandonPanel, h, State.condemn, found, State.noticeOf, last]

theorem State.abandonPanel_haltedAtBlade (s : State) : s.haltedAtBlade (s.abandonPanel .halted) := by
  cases current : s.seq.current with
  | none =>
    have alone : s.abandonPanel .halted = { s with seq := { s.seq with state := .runout, play := none } } := by
      simp only [State.abandonPanel, current]
    rw [alone]
    exact ⟨rfl, .inl rfl, rfl, rfl, fun _ => ⟨rfl, rfl, rfl⟩, fun _ found => nomatch current.symm.trans found⟩
  | some d =>
    obtain ⟨cause, list, others, kept, listed, gone, frame⟩ := s.abandonPanel_givesUpPanel d .halted current
    have plan := s.abandonPanel_plan d .halted current
    have entries := congrArg (List.map Prod.fst) list
    simp only [List.map_map] at entries
    have notNone : s.seq.current ≠ none := by simp [current]
    refine ⟨by rw [frame], kept, entries, by rw [frame], (absurd · notNone), fun d' same => ?_⟩
    obtain rfl := Option.some.inj (current.symm.trans same)
    refine ⟨others, fun p found => ?_, fun absent => ?_⟩
    · obtain ⟨recorded, fifo⟩ := cause.1 p found
      simp only [found] at plan
      refine ⟨fun fresh => ?_, fun caused => ?_, fifo⟩
      · exact ⟨by simpa [fresh] using recorded, by rw [plan, if_pos fresh]⟩
      · obtain ⟨c, first⟩ := Option.ne_none_iff_exists'.1 caused
        have same : { p with cause := some (p.cause.getD .halted) } = p := by rw [first]; exact first ▸ rfl
        exact ⟨by rw [recorded, same], by rw [plan, if_neg caused]⟩
    · obtain ⟨map, -, events⟩ := gone absent
      obtain ⟨dropped, noticed⟩ := cause.2 absent
      have duplicate : (s.abandonPanel .halted).events.has .duplicateIndex = s.events.has .duplicateIndex := by
        rw [events]
        split
        · exact EventLatch.has_set_other nofun
        · rfl
      simp only [absent] at plan
      refine ⟨map, fun last => by rw [plan, if_pos last], fun notLast => by rw [plan, if_neg (by simp [notLast])], ?_, ?_⟩
      · rw [duplicate]
        exact dropped
      · rw [duplicate]
        exact noticed

theorem State.heldAbort_halted {s : State} (playing : s.seq.state = .leadIn ∨ s.seq.state = .folding) :
    s.heldAbort = s.abandonPanel .halted := by
  unfold State.heldAbort
  rcases playing with state | state <;> rw [state]

theorem State.heldAbort_idle {s : State} (playing : ¬ (s.seq.state = .leadIn ∨ s.seq.state = .folding)) : s.heldAbort = s := by
  unfold State.heldAbort
  split <;> simp_all

/-! ### The same station at the blade -/

theorem LineControl.peer_congr {l m : LineControl} (peers : m.peers = l.peers) (i : BitVec 4) : m.peer i = l.peer i :=
  congrArg (fun v : Vector Peer 16 => v[i.toNat]) peers

theorem State.isLast_congr {s u : State} (boot : u.boot = s.boot) (peers : u.line.peers = s.line.peers) : u.isLast = s.isLast := by
  have standing : u.line.standing = s.line.standing := by
    funext i
    simp only [LineControl.standing, LineControl.peer_congr peers]
  rw [State.isLast, State.isLast, standing, boot]

/-- Nothing that the blade's rules read differs: the configuration, the last station, the list, the waiting handoffs, the plan and the Sequencer. -/
structure State.sameBlade (s u : State) : Prop where
  boot : u.boot = s.boot
  cfg : u.cfg = s.cfg
  isLast : u.isLast = s.isLast
  fifo : u.link.handoffFifo = s.link.handoffFifo
  map : u.map = s.map
  plan : u.plan = s.plan
  seq : u.seq = s.seq

theorem State.sameBlade.panel? {s u : State} (h : s.sameBlade u) (n : Nat) : u.panel? n = s.panel? n := by
  simp only [State.panel?, h.map]

theorem State.sameBlade.planAfter {s u : State} (h : s.sameBlade u) (n : Nat) (c : RejectCause) : u.planAfter n c = s.planAfter n c := by
  simp only [State.planAfter, h.plan, h.cfg]

theorem State.sameBlade.planKept {s u t : State} (h : s.sameBlade u) (kept : u.planKept t) : s.planKept t := by
  simpa only [State.planKept, h.plan, h.cfg] using kept

theorem State.sameBlade.haltedAtBlade {s u t : State} (h : s.sameBlade u) (halted : u.haltedAtBlade t) : s.haltedAtBlade t := by
  simpa only [State.haltedAtBlade, State.planKept, h.plan, h.cfg, h.seq, h.map, h.fifo, h.isLast, h.panel?, h.planAfter] using halted

theorem State.sameBlade.heldRule {s u t : State} (h : s.sameBlade u) (state : u.line.state = s.line.state) (held : u.heldRule t) :
    s.heldRule t := by
  refine ⟨fun enters => h.haltedAtBlade (held.1 (by rwa [state, h.seq])), fun stays => ?_⟩
  have same := held.2 (by rwa [state, h.seq])
  rwa [h.seq, h.map, h.fifo, h.plan] at same

/-- A command that reaches `u` without touching the blade, and then `t` from `u`. -/
theorem State.heldRule.congr {s t u : State} (h : s.heldRule t) (state : u.line.state = t.line.state) (seq : u.seq = t.seq)
    (map : u.map = t.map) (fifo : u.link.handoffFifo = t.link.handoffFifo) (plan : u.plan = t.plan) (events : u.events = t.events) :
    s.heldRule u := by
  have panels (n : Nat) : u.panel? n = t.panel? n := by simp only [State.panel?, map]
  simpa only [State.heldRule, State.haltedAtBlade, State.planKept, state, seq, map, fifo, plan, events, panels] using h

theorem State.heldRule_of_same {s t : State} (same : s.sameBlade t) (state : t.line.state = .held → s.line.state = .held) :
    s.heldRule t :=
  ⟨fun ⟨now, before, _⟩ => absurd (state now) before, fun _ => ⟨same.seq, same.map, same.fifo, same.plan⟩⟩

/-- Entry into HELD from `u`, which has what `s` has at the blade. -/
theorem State.heldAbort_heldRule {s u : State} (same : s.sameBlade u) (before : s.line.state ≠ .held)
    (held : u.line.state = .held) : s.heldRule u.heldAbort := by
  by_cases playing : u.seq.state = .leadIn ∨ u.seq.state = .folding
  · rw [State.heldAbort_halted playing]
    have halted := same.haltedAtBlade u.abandonPanel_haltedAtBlade
    refine ⟨fun _ => halted, fun stays => absurd stays ?_⟩
    rw [← same.seq]
    have now : (u.abandonPanel .halted).line.state = .held := by simpa using held
    simp only [now, before, ne_eq, not_true, false_or]
    tauto
  · rw [State.heldAbort_idle playing]
    refine ⟨fun ⟨_, _, play⟩ => absurd (same.seq ▸ play) playing, fun _ => ⟨same.seq, same.map, same.fifo, same.plan⟩⟩

/-! ### The Splice Unit as the line leaves RUN (R188, R192) -/

theorem State.leaveMatching_eq (s : State) (goal : SpliceState) :
    s.leaveMatching goal =
      { s with
        splice := { s.splice with state := goal, vNew := 0, rampTimer := none, matchTimer := none, matchTimeout := none }
        step1 :=
          if s.splice.vNew ≠ 0 ∧ s.cfg.unwind = true then s.step1.place (divisorFor s.cfg.newRollTicksPerStep 0) else s.step1 } := by
  unfold State.leaveMatching State.setVNew
  by_cases still : s.splice.vNew = 0 <;> cases s.cfg.unwind <;> simp [still, eq_comm]

/-- The line state becomes `st`, which is not RUN: the zones out of band where they may not stay, and MATCHING left. -/
def State.resting (s : State) (st : LineState) : State :=
  let t :=
    { s with
      line := { s.line with state := st }
      steam := { s.steam with zones := bandsAt st s.steam.zones } }
  if s.splice.state = .matching then t.leaveMatching .armed else t

theorem State.enterLine_resting (s : State) {st : LineState} (notRun : st ≠ .run) :
    s.enterLine st = if st = .held then (s.resting st).heldAbort else s.resting st := by
  have splice : State.spliceOnLine
      { s with line := { s.line with state := st }, steam := { s.steam with zones := bandsAt st s.steam.zones } } = s.resting st := by
    unfold State.spliceOnLine State.resting
    split <;> simp_all [State.tryMatching]
  simp only [State.enterLine, splice]

theorem State.resting_frame (s : State) (st : LineState) :
    s.resting st =
      { s with
        line := { s.line with state := st }
        steam := { s.steam with zones := bandsAt st s.steam.zones }
        splice := (s.resting st).splice
        step1 := (s.resting st).step1 } := by
  unfold State.resting
  dsimp only
  split
  · rw [State.leaveMatching_eq]
  · rfl

theorem State.resting_of_matching {s : State} (matching : s.splice.state = .matching) (st : LineState) :
    (s.resting st).splice.state = .armed ∧ (s.resting st).splice.vNew = 0 ∧ (s.resting st).splice.rampTimer = none ∧
      (s.resting st).splice.matchTimer = none ∧ (s.resting st).splice.matchTimeout = none := by
  rw [State.resting, if_pos matching, State.leaveMatching_eq]
  exact ⟨rfl, rfl, rfl, rfl, rfl⟩

theorem State.resting_of_notMatching {s : State} (notMatching : s.splice.state ≠ .matching) (st : LineState) :
    s.resting st =
      { s with line := { s.line with state := st }, steam := { s.steam with zones := bandsAt st s.steam.zones } } :=
  if_neg notMatching

theorem State.resting_rolls (s : State) (st : LineState) :
    (s.resting st).splice.rollA = s.splice.rollA ∧ (s.resting st).splice.rollB = s.splice.rollB := by
  unfold State.resting
  dsimp only
  split
  · rw [State.leaveMatching_eq]
    exact ⟨rfl, rfl⟩
  · exact ⟨rfl, rfl⟩

theorem State.sameBlade.resting {s u : State} (h : s.sameBlade u) (st : LineState) : s.sameBlade (u.resting st) := by
  rw [State.resting_frame]
  exact ⟨h.boot, h.cfg, h.isLast, h.fifo, h.map, h.plan, h.seq⟩

theorem State.sameBlade.rfl {s : State} : s.sameBlade s := ⟨.refl _, .refl _, .refl _, .refl _, .refl _, .refl _, .refl _⟩

/-- Two moves in one: a zone out of band stays so, and MATCHING is left once. -/
theorem State.resting_resting (s : State) {a b : LineState} (heats : b.heats = false) : (s.resting a).resting b = s.resting b := by
  have bands : bandsAt b (bandsAt a s.steam.zones) = bandsAt b s.steam.zones := by
    cases a <;> cases b <;> simp_all [bandsAt, LineState.heats, Function.comp_def]
  have left : (s.resting a).splice.state ≠ .matching := by
    by_cases matching : s.splice.state = .matching
    · simp [(State.resting_of_matching matching a).1]
    · rwa [State.resting_of_notMatching matching]
  rw [State.resting_of_notMatching left]
  by_cases matching : s.splice.state = .matching
  · simp only [State.resting, if_pos matching, State.leaveMatching_eq, bands]
  · simp only [State.resting, if_neg matching, bands]

theorem bandsAt_out {st : LineState} (heats : st.heats = false) (zones : List Zone) : ∀ z ∈ bandsAt st zones, z.inBand = false := by
  cases st <;> simp_all [bandsAt, LineState.heats]

/-! ### A halt of the line (R37 to R39) -/

/-- The state in which a halt leaves the line, before HELD gives up the panel at the blade: HELD at v_cmd 0 and from STANDBY, HALTING
else. -/
def State.halted (s : State) (origin : Byte) : State :=
  State.resting { s with line := { s.line with haltOrigin := origin } }
    (if s.line.state ≠ .standby ∧ s.line.vCmd ≠ 0 then .halting else .held)

theorem State.haltLine_rests {s : State} (rests : s.line.state = .halting ∨ s.line.state = .held ∨ s.line.state = .starting)
    (origin : Byte) : s.haltLine origin = s := by
  unfold State.haltLine
  rcases rests with state | state | state <;> rw [state]

theorem State.enterHalting_passOn (s : State) :
    State.passOn (s.enterLine .halting) = if s.line.vCmd = 0 then (s.resting .held).heldAbort else s.resting .halting := by
  rw [State.enterLine_resting s (by decide), if_neg (by decide), State.passOn, State.resting_frame]
  dsimp only
  split
  · rw [← State.resting_frame, State.enterLine_resting _ (by decide), if_pos rfl, State.resting_resting s rfl]
  · rfl

theorem State.haltLine_moves {s : State} (moves : s.line.state = .run ∨ s.line.state = .stopping ∨ s.line.state = .standby)
    (origin : Byte) :
    s.haltLine origin = if s.line.state ≠ .standby ∧ s.line.vCmd ≠ 0 then s.halted origin else (s.halted origin).heldAbort := by
  unfold State.haltLine State.halted
  obtain state | state | state := moves
  · by_cases still : s.line.vCmd = 0 <;> simp [state, still, State.enterHalting_passOn]
  · by_cases still : s.line.vCmd = 0 <;> simp [state, still, State.enterHalting_passOn]
  · simp [state, State.enterLine_resting]

theorem State.halted_frame (s : State) (origin : Byte) :
    s.halted origin =
      { s with
        line :=
          { s.line with
            state := if s.line.state ≠ .standby ∧ s.line.vCmd ≠ 0 then .halting else .held
            haltOrigin := origin }
        steam :=
          { s.steam with
            zones := bandsAt (if s.line.state ≠ .standby ∧ s.line.vCmd ≠ 0 then .halting else .held) s.steam.zones }
        splice := (s.halted origin).splice
        step1 := (s.halted origin).step1 } :=
  State.resting_frame { s with line := { s.line with haltOrigin := origin } } _

theorem State.halted_zones (s : State) (origin : Byte) : ∀ z ∈ (s.halted origin).steam.zones, z.inBand = false := by
  rw [State.halted, State.resting_frame]
  refine bandsAt_out ?_ _
  split <;> rfl

/-! ### The events and the rest of the state as HELD is entered -/

theorem State.heldAbort_frame (s : State) :
    s.heldAbort =
      { s with
        map := { s.map with features := s.heldAbort.map.features }
        seq := s.heldAbort.seq
        link := { s.link with handoffFifo := s.heldAbort.link.handoffFifo, serial := s.heldAbort.link.serial }
        events := s.heldAbort.events
        plan := s.heldAbort.plan
        tracker := { s.tracker with ref := s.heldAbort.tracker.ref } } := by
  by_cases playing : s.seq.state = .leadIn ∨ s.seq.state = .folding
  · rw [State.heldAbort_halted playing]
    cases current : s.seq.current with
    | none => simp [State.abandonPanel, current]
    | some d =>
      obtain ⟨-, -, -, -, -, -, frame⟩ := s.abandonPanel_givesUpPanel d .halted current
      rw [frame]
  · rw [State.heldAbort_idle playing]

theorem State.heldAbort_events (s : State) : s.heldAbort.events = s.events ∨ s.heldAbort.events = s.events.set .lateReject := by
  by_cases playing : s.seq.state = .leadIn ∨ s.seq.state = .folding
  · rw [State.heldAbort_halted playing]
    cases current : s.seq.current with
    | none => simp [State.abandonPanel, current]
    | some d =>
      obtain ⟨-, -, -, -, listed, gone, -⟩ := s.abandonPanel_givesUpPanel d .halted current
      cases found : s.panel? d.panel with
      | some q => exact .inl (listed q found).1
      | none =>
        rw [(gone found).2.2]
        split
        · exact .inr rfl
        · exact .inl rfl
  · exact .inl (by rw [State.heldAbort_idle playing])

/-- Entry into HELD latches no event of the halt class. -/
theorem State.heldAbort_has (s : State) {e : Event} (halt : e.isHalt = true) : s.heldAbort.events.has e = s.events.has e := by
  rcases s.heldAbort_events with same | late
  · rw [same]
  · rw [late, EventLatch.has_set_other]
    rintro rfl
    exact absurd halt (by decide)

/-! ### What a halt leaves -/

section
variable {s : State} (origin : Byte)

theorem State.haltLine_line (moves : s.line.state = .run ∨ s.line.state = .stopping ∨ s.line.state = .standby) :
    (s.haltLine origin).line =
      { s.line with state := if s.line.state ≠ .standby ∧ s.line.vCmd ≠ 0 then .halting else .held, haltOrigin := origin } := by
  rw [State.haltLine_moves moves]
  split
  · next running => rw [State.halted_frame, if_pos running]
  · next still => rw [State.heldAbort_frame, State.halted_frame, if_neg still]

/-- The zones and the Splice Unit after a halt that moves the line. -/
theorem State.haltLine_halted (moves : s.line.state = .run ∨ s.line.state = .stopping ∨ s.line.state = .standby) :
    (s.haltLine origin).steam = (s.halted origin).steam ∧ (s.haltLine origin).splice = (s.halted origin).splice := by
  rw [State.haltLine_moves moves]
  split
  · exact ⟨rfl, rfl⟩
  · rw [State.heldAbort_frame]
    exact ⟨rfl, rfl⟩

theorem State.halted_splice :
    (s.splice.state = .matching → (s.halted origin).splice.state = .armed ∧ (s.halted origin).splice.vNew = 0 ∧
        (s.halted origin).splice.rampTimer = none ∧ (s.halted origin).splice.matchTimer = none ∧
        (s.halted origin).splice.matchTimeout = none) ∧
      (s.splice.state ≠ .matching → (s.halted origin).splice = s.splice) ∧
      (s.halted origin).splice.rollA = s.splice.rollA ∧ (s.halted origin).splice.rollB = s.splice.rollB := by
  refine ⟨fun matching => State.resting_of_matching (s := { s with line := { s.line with haltOrigin := origin } }) matching _,
    fun notMatching => ?_, State.resting_rolls _ _⟩
  rw [State.halted, State.resting_of_notMatching (s := { s with line := { s.line with haltOrigin := origin } }) notMatching]

theorem State.haltLine_frame :
    s.haltLine origin =
      { s with
        link := { s.link with handoffFifo := (s.haltLine origin).link.handoffFifo, serial := (s.haltLine origin).link.serial }
        events := (s.haltLine origin).events
        line := (s.haltLine origin).line
        steam := (s.haltLine origin).steam
        splice := (s.haltLine origin).splice
        step1 := (s.haltLine origin).step1
        map := { s.map with features := (s.haltLine origin).map.features }
        plan := (s.haltLine origin).plan
        tracker := { s.tracker with ref := (s.haltLine origin).tracker.ref }
        seq := (s.haltLine origin).seq } := by
  by_cases moves : s.line.state = .run ∨ s.line.state = .stopping ∨ s.line.state = .standby
  · rw [State.haltLine_moves moves]
    split
    · rw [State.halted_frame]
    · rw [State.heldAbort_frame, State.halted_frame]
  · rw [State.haltLine_rests (by cases state : s.line.state <;> simp_all)]

theorem State.halted_sameBlade : s.sameBlade (s.halted origin) := by
  rw [State.halted_frame]
  exact ⟨rfl, rfl, rfl, rfl, rfl, rfl, rfl⟩

theorem State.haltLine_heldRule : s.heldRule (s.haltLine origin) := by
  by_cases moves : s.line.state = .run ∨ s.line.state = .stopping ∨ s.line.state = .standby
  · have before : s.line.state ≠ .held := by rcases moves with state | state | state <;> simp [state]
    rw [State.haltLine_moves moves]
    split
    · next running =>
      refine State.heldRule_of_same (State.halted_sameBlade origin) ?_
      rw [State.halted_frame, if_pos running]
      nofun
    · next still =>
      refine State.heldAbort_heldRule (State.halted_sameBlade origin) before ?_
      rw [State.halted_frame, if_neg still]
  · rw [State.haltLine_rests (by cases state : s.line.state <;> simp_all)]
    exact State.heldRule_of_same .rfl id

theorem State.haltLine_events : (s.haltLine origin).events = s.events ∨ (s.haltLine origin).events = s.events.set .lateReject := by
  by_cases moves : s.line.state = .run ∨ s.line.state = .stopping ∨ s.line.state = .standby
  · rw [State.haltLine_moves moves]
    split
    · rw [State.halted_frame]
      exact .inl rfl
    · have entered := (s.halted origin).heldAbort_events
      rwa [show (s.halted origin).events = s.events by rw [State.halted_frame]] at entered
  · rw [State.haltLine_rests (by cases state : s.line.state <;> simp_all)]
    exact .inl rfl

/-- A halt latches no event of the halt class. -/
theorem State.haltLine_has {e : Event} (halt : e.isHalt = true) : (s.haltLine origin).events.has e = s.events.has e := by
  rcases State.haltLine_events (s := s) origin with same | late
  · rw [same]
  · rw [late, EventLatch.has_set_other]
    rintro rfl
    exact absurd halt (by decide)

end

/-! ### A latched event of the halt class (R37, R200) -/

section
variable {s : State} {e : Event}

theorem State.raiseHalt_open (isOpen : s.link.haltClosed = false) (strapped : s.boot.index ≠ 0) :
    s.raiseHalt e =
      { s with
        link :=
          { s.link with
            haltWaiting :=
              some { id := s.link.serial, payload := .halt (BitVec.ofNat 8 e.priority) (s.boot.index.setWidth 8) }
            serial := s.link.serial + 1 } } := by
  rw [State.raiseHalt, isOpen, decide_eq_false strapped]
  exact if_neg Bool.false_ne_true

theorem State.raiseHalt_closed (closed : s.link.haltClosed = true ∨ s.boot.index = 0) : s.raiseHalt e = s :=
  if_pos (by simpa using closed)

theorem State.latch_halt (halt : e.isHalt = true) : s.latch e = ((s.flag e).haltLine s.ownIndex).raiseHalt e := by
  simp only [State.latch, if_pos halt]

theorem State.latch_report (report : e.isHalt = false) : s.latch e = s.flag e := by
  simp [State.latch, report]

theorem State.latch_has : (s.latch e).events.has e = true := by
  by_cases halt : e.isHalt = true
  · rw [State.latch_halt halt, (State.raiseHalt_same _ _).2.2.2.2.2.2.2.2.2.2.2.2.2.1, State.haltLine_has _ halt]
    exact EventLatch.set_has _ _
  · rw [State.latch_report (by simpa using halt)]
    exact EventLatch.set_has _ _

theorem State.flag_sameBlade : s.sameBlade (s.flag e) := ⟨rfl, rfl, rfl, rfl, rfl, rfl, rfl⟩

theorem State.latch_heldRule : s.heldRule (s.latch e) := by
  by_cases halt : e.isHalt = true
  · rw [State.latch_halt halt]
    exact ((State.flag_sameBlade (e := e)).heldRule rfl (State.haltLine_heldRule s.ownIndex)).congr (by simp) (by simp) (by simp) (by simp)
      (by simp) (by simp)
  · rw [State.latch_report (by simpa using halt)]
    exact State.heldRule_of_same State.flag_sameBlade id

theorem State.latch_haltOpen (halt : e.isHalt = true) (isOpen : s.link.haltClosed = false) (strapped : s.boot.index ≠ 0) :
    (s.latch e).link.haltWaiting.map (fun f => f.payload) =
      some (.halt (BitVec.ofNat 8 e.priority) (s.boot.index.setWidth 8)) := by
  rw [State.latch_halt halt, State.raiseHalt_open (by simpa using isOpen) (by simpa using strapped)]
  simp

theorem State.latch_haltClosed (halt : e.isHalt = true) (closed : s.link.haltClosed = true ∨ s.boot.index = 0) :
    (s.latch e).link.haltWaiting = s.link.haltWaiting := by
  rw [State.latch_halt halt, State.raiseHalt_closed (by simpa using closed)]
  simp

/-- The line after a latched event of the halt class is the line after its halt. -/
theorem State.latch_line (halt : e.isHalt = true) : (s.latch e).line = ((s.flag e).haltLine s.ownIndex).line := by
  rw [State.latch_halt halt]
  simp

theorem State.latch_line_moves (halt : e.isHalt = true)
    (moves : s.line.state = .run ∨ s.line.state = .stopping ∨ s.line.state = .standby) :
    (s.latch e).line =
      { s.line with
        state := if s.line.state ≠ .standby ∧ s.line.vCmd ≠ 0 then .halting else .held
        haltOrigin := s.boot.index.setWidth 8 } :=
  (State.latch_line halt).trans (State.haltLine_line (s := s.flag e) _ moves)

theorem State.latch_line_rests (halt : e.isHalt = true)
    (rests : s.line.state = .halting ∨ s.line.state = .held ∨ s.line.state = .starting) : (s.latch e).line = s.line :=
  (State.latch_line halt).trans (by rw [State.haltLine_rests (s := s.flag e) rests]; rfl)

end

end Sys2Proof.Machine
end

section
/-! SUPPORT. The frames: what the command of an accepted frame does by whether it is the station's own index's, routed or dropped (R6, R9 to
R12, R21, R30). -/

namespace Sys2Proof.Machine

/-- The command of an accepted frame: a foreign frame of the own index latches DUPLICATE_INDEX, a routed one reaches its owner, and any
other is dropped. -/
theorem exec_commandOf {s : State} {bytes : List Byte} {f : RxFrame} (receiving : s.link.line = .receiving)
    (accepted : acceptFrame bytes = some f) :
    exec (commandOf f.payload bytes) s =
      .next
        (if s.boot.index ≠ 0 ∧ f.sender = s.boot.index then s.heard.latchDuplicate
        else if s.routes f then s.heard.takes f
        else s.heard) := by
  obtain ⟨sender, payload⟩ := f
  cases payload
  all_goals
    change Host.Outcome.next (s.receive bytes _) = _
    simp only [State.receive, receiving, accepted]
    rfl

theorem exec_frame_rejected {s : State} {bytes : List Byte} (receiving : s.link.line = .receiving) (rejected : acceptFrame bytes = none)
    {c : List Byte → Instr} (mem : c ∈ frameCommands) : exec (c bytes) s = .next s.heard := by
  have dropped (owner : RxFrame → Option (State → State)) : s.receive bytes owner = s.heard := by
    simp [State.receive, receiving, rejected, State.heard]
  simp only [frameCommands, List.mem_cons, List.not_mem_nil, or_false] at mem
  obtain rfl | rfl | rfl | rfl | rfl | rfl | rfl | rfl | rfl | rfl | rfl | rfl | rfl | rfl | rfl | rfl | rfl | rfl := mem
  all_goals exact congrArg Host.Outcome.next (dropped _)

theorem exec_takes {s : State} {bytes : List Byte} {f : RxFrame} (heard : s.hears bytes f) :
    exec (commandOf f.payload bytes) s = .next (s.heard.takes f) := by
  obtain ⟨receiving, accepted, routed⟩ := heard
  have other : f.sender ≠ s.boot.index := by simp_all [State.routes]
  rw [exec_commandOf receiving accepted, if_neg (fun own => other own.2), if_pos routed]

/-- Settles O5. -/
theorem unprocessedFramesChangeNothing : Obligations.UnprocessedFramesChangeNothing := by
  refine ⟨fun s bytes receiving rejected c mem => exec_frame_rejected receiving rejected mem,
    fun s bytes f receiving accepted notOwn dropped => ?_⟩
  rw [exec_commandOf receiving accepted, if_neg (by tauto)]
  split
  · next routed =>
    have report : f.payload.kind = .report := by simp_all [State.routes]
    obtain ⟨sender, payload⟩ := f
    cases payload <;> cases report
    rfl
  · rfl

theorem State.heard_sameBlade {s : State} : s.sameBlade s.heard := ⟨rfl, rfl, rfl, rfl, rfl, rfl, rfl⟩

/-- A latched event keeps the origin's plan but for the first cause of its last created panel. -/
theorem State.heldRule.planKept {s t : State} (h : s.heldRule t) : s.planKept t := by
  by_cases enters : t.line.state = .held ∧ s.line.state ≠ .held ∧ (s.seq.state = .leadIn ∨ s.seq.state = .folding)
  · exact (h.1 enters).2.1
  · obtain ⟨-, -, -, plan⟩ := h.2 (by tauto)
    exact .inl plan

/-- Settles O6. -/
theorem foreignOwnIndexLatchesDuplicate : Obligations.ForeignOwnIndexLatchesDuplicate := by
  intro s bytes f receiving accepted strapped own
  refine ⟨s.heard.latchDuplicate, ?_, ?_, rfl, rfl, rfl, rfl, rfl, ?_, ?_, ?_, ?_, ?_, ?_⟩
  · rw [exec_commandOf receiving accepted, if_pos ⟨strapped, own⟩]
  · exact State.latch_has
  · cases closed : s.link.haltClosed
    · exact State.latch_haltOpen (s := s.heard) rfl closed strapped
    · exact State.latch_haltClosed (s := s.heard) rfl (.inl closed)
  · simp [State.heard]
  · simp [State.heard]
  · exact State.latch_heldRule.planKept
  · simp [State.heard]
  · simp [State.heard]

/-! ### HALT, and events of the halt class (R37 to R39) -/

theorem latch_haltsTheLine (s : State) {e : Event} (halt : e.isHalt = true) :
    (s.line.state = .run ∨ s.line.state = .stopping →
        (s.latch e).line.state = (if s.line.vCmd = 0 then .held else .halting) ∧
          (s.latch e).line.haltOrigin = s.boot.index.setWidth 8) ∧
      (s.line.state = .standby → (s.latch e).line.state = .held ∧ (s.latch e).line.haltOrigin = s.boot.index.setWidth 8) := by
  refine ⟨fun running => ?_, fun standby => ?_⟩
  · have notStandby : s.line.state ≠ .standby := by rcases running with state | state <;> simp [state]
    rw [State.latch_line_moves halt (by tauto)]
    by_cases still : s.line.vCmd = 0 <;> simp [notStandby, still]
  · rw [State.latch_line_moves halt (by tauto)]
    simp [standby]

/-- A HALT frame from RUN, STOPPING and STANDBY. -/
theorem halt_haltsTheLine {s : State} (moves : s.line.state = .run ∨ s.line.state = .stopping ∨ s.line.state = .standby) (origin : Byte) :
    (∀ z ∈ (s.haltLine origin).steam.zones, z.inBand = false) ∧
      (s.splice.state = .matching → (s.haltLine origin).splice.state = .armed ∧ (s.haltLine origin).splice.vNew = 0 ∧
        (s.haltLine origin).splice.rampTimer = none ∧ (s.haltLine origin).splice.matchTimer = none ∧
        (s.haltLine origin).splice.matchTimeout = none) ∧
      (s.splice.state ≠ .matching → (s.haltLine origin).splice.state = s.splice.state) ∧
      (s.line.state ≠ .standby → s.line.vCmd ≠ 0 →
        (s.haltLine origin).events = s.events ∧ (s.haltLine origin).tracker = s.tracker) := by
  obtain ⟨steam, splice⟩ := State.haltLine_halted origin moves
  obtain ⟨left, same, -⟩ := State.halted_splice (s := s) origin
  rw [steam, splice]
  refine ⟨s.halted_zones origin, left, fun notMatching => by rw [same notMatching], fun notStandby runs => ?_⟩
  rw [State.haltLine_moves moves, if_pos ⟨notStandby, runs⟩, State.halted_frame]
  exact ⟨rfl, rfl⟩

/-- Settles O19. -/
theorem haltsHaltTheLine : Obligations.HaltsHaltTheLine := by
  refine ⟨fun s e halt => ?_, fun s bytes sender cause origin heard => ?_⟩
  · obtain ⟨runs, stands⟩ := latch_haltsTheLine s halt
    exact ⟨State.latch_has, runs, stands, State.latch_line_rests halt, State.latch_haltOpen halt, State.latch_haltClosed halt,
      by simp, by simp, by simp, by simp, State.latch_heldRule, by simp, by simp, by simp, by simp⟩
  · have taken : exec (.halt bytes) s = .next (s.heard.haltLine origin) := exec_takes heard
    refine ⟨fun rests => ?_, fun moves => ⟨_, taken, ?_⟩⟩
    · rw [taken, State.haltLine_rests (s := s.heard) (by tauto)]
    · obtain ⟨zones, left, same, quiet⟩ := halt_haltsTheLine (s := s.heard) (by tauto) origin
      refine ⟨State.haltLine_line (s := s.heard) origin (by tauto), fun e halt => State.haltLine_has origin halt, by simp [State.heard],
        zones, left, same, State.heard_sameBlade.heldRule rfl (State.haltLine_heldRule origin), quiet, ?_⟩
      rw [State.haltLine_frame]
      rfl

end Sys2Proof.Machine
end

section
/-! SUPPORT. Resets, start-up and the block's good and bad ends (R18 to R31, R116 to R118). -/

namespace Sys2Proof.Machine

/-! ### Resets (R18 to R20) -/

theorem State.startReset_eq (s : State) (cause : ResetCause) (phase : StartPhase) :
    s.startReset cause phase =
      { State.reset with
        pending := s.pending
        boot := { State.reset.boot with phase := phase }
        events := { State.reset.events with resetCause := cause }
        store := { State.reset.store with nv := s.stopArray.store.nv, counter := s.stopArray.store.counter }
        free := s.stopArray.free } := by
  have pending := s.stopArray_pending
  unfold State.startReset State.volatileReset
  rw [pending]
  rfl

/-- Settles O11. -/
theorem resetCommandsLeaveTheResetState : Obligations.ResetCommandsLeaveTheResetState := by
  intro s c cause phase which
  refine ⟨s.startReset cause phase, ?_, s.startReset_eq cause phase⟩
  obtain ⟨rfl, rfl, rfl⟩ | ⟨rfl, on, rfl, rfl⟩ | ⟨rfl, rfl, rfl⟩ := which
  · rfl
  · exact congrArg Host.Outcome.next (if_neg on)
  · rfl

theorem State.takeRestart_resets {s : State} (rests : s.line.state = .standby ∨ s.line.state = .held)
    (notPasting : s.splice.state ≠ .pasting) (notCutting : s.splice.state ≠ .cutting) :
    s.takeRestart = s.startReset .restart .inReset := by
  unfold State.takeRestart
  rcases rests with state | state <;> rw [state] <;> cases splice : s.splice.state <;> simp_all

theorem State.takeRestart_refused {s : State}
    (busy : s.line.state = .run ∨ s.line.state = .stopping ∨ s.line.state = .halting ∨
      (s.line.state = .standby ∨ s.line.state = .held) ∧ (s.splice.state = .pasting ∨ s.splice.state = .cutting)) :
    s.takeRestart = s.refuse .restart .badState := by
  unfold State.takeRestart
  rcases busy with state | state | state | ⟨state | state, splice | splice⟩ <;> simp [state] <;> simp [splice]

/-- Settles O13. -/
theorem restartResetsOnlyAtRest : Obligations.RestartResetsOnlyAtRest := by
  intro s bytes sender targets heard
  have taken : exec (.restart bytes) s = .next s.heard.takeRestart := exec_takes heard
  refine ⟨fun rests notPasting notCutting => ⟨_, taken, ?_, ?_⟩, fun busy => ?_⟩
  · rw [State.takeRestart_resets (s := s.heard) rests notPasting notCutting]
    exact s.heard.startReset_eq _ _
  · rw [State.takeRestart_resets (s := s.heard) rests notPasting notCutting]
    exact s.heard.stopArray_arrayKept
  · rw [taken, State.takeRestart_refused (s := s.heard) busy]
    rfl

/-- A slot that stopping the array changes is the slot of the operation that runs, of the copy that a program retires, or of the scan's
erase. -/
theorem State.stopArray_cell (s : State) (i : Fin 32) (changed : s.stopArray.store.cell i ≠ s.store.cell i) :
    (∃ p rest, s.store.ops = .program i p :: rest) ∨ (∃ rest, s.store.ops = .erase i :: rest) ∨
      (∃ j p rest, s.store.ops = .program j p :: rest ∧ s.store.validSlot p.id = some i) ∨ (∃ rest, s.boot.scanMarks = i :: rest) := by
  have own {k : Fin 32} {c : Option NvRecord} (differs : (s.store.setCell k c).cell i ≠ s.store.cell i) : k = i := by
    by_contra other
    exact differs ((Store.setCell_cell ..).trans (if_neg other))
  unfold State.stopArray at changed
  split at changed
  · unfold Store.tearOp at changed
    split at changed
    · next j p rest _ ops =>
      rw [Store.tearProgram_cell] at changed
      split_ifs at changed with retired own own
      · exact .inl ⟨p, rest, own ▸ ops⟩
      · exact .inr (.inr (.inl ⟨j, p, rest, ops, retired.2.2⟩))
      · exact .inl ⟨p, rest, own ▸ ops⟩
      · exact absurd rfl changed
    · next j rest _ ops =>
      split at changed
      · exact absurd rfl changed
      · exact .inr (.inl ⟨rest, own changed ▸ ops⟩)
    · exact absurd rfl changed
  · split at changed
    · next j rest marks => exact .inr (.inr (.inr ⟨rest, own changed ▸ marks⟩))
    · exact absurd rfl changed

theorem State.stopArray_counter (s : State) {j : Fin 32} {rest : List NvOp} (ops : s.store.ops = .erase j :: rest) :
    s.stopArray.store.counter = s.store.counter := by
  obtain ⟨idle, scan, -, erase⟩ := s.stopArray_arrayKept
  by_cases phase : s.store.phase = none
  · cases marks : s.boot.scanMarks with
    | nil => exact (idle phase marks).2
    | cons i rest => exact (scan i rest phase marks).1
  · exact (erase j rest phase ops).1

/-- Settles O12. -/
theorem resetsKeepTheArray : Obligations.ResetsKeepTheArray := by
  intro s t c which taken
  obtain ⟨u, cause, phase, store, boot, rfl⟩ : ∃ (u : State) (cause : ResetCause) (phase : StartPhase),
      u.store = s.store ∧ u.boot = s.boot ∧ u.startReset cause phase = t := by
    obtain rfl | ⟨rfl, on⟩ | rfl | ⟨bytes, sender, targets, rfl, heard, rests, notPasting, notCutting⟩ := which
    · exact ⟨s, _, _, rfl, rfl, Host.Outcome.next.inj taken⟩
    · exact ⟨s, .pin, .inReset, rfl, rfl, (if_neg on).symm.trans (Host.Outcome.next.inj taken)⟩
    · exact ⟨s, _, _, rfl, rfl, Host.Outcome.next.inj taken⟩
    · refine ⟨s.heard, .restart, .inReset, rfl, rfl, ?_⟩
      rw [← State.takeRestart_resets (s := s.heard) rests notPasting notCutting]
      exact Host.Outcome.next.inj ((exec_takes heard).symm.trans taken)
  rw [← store, ← boot]
  have kept : s.arrayKept (u.startReset cause phase) := by
    rw [State.arrayKept, ← store, ← boot]
    exact u.stopArray_arrayKept
  exact ⟨kept, fun j rest ops => u.stopArray_counter ops, u.stopArray_cell⟩

/-! ### Start-up (R21 to R27) -/

theorem bandsAt_of_out {zones : List Zone} (out : ∀ z ∈ zones, z.inBand = false) (st : LineState) : bandsAt st zones = zones := by
  have same : zones.map (fun z => { z with inBand := false }) = zones := by
    refine (List.map_congr_left (g := id) fun z mem => ?_).trans (List.map_id _)
    have notIn := out z mem
    rw [← notIn]
    rfl
  cases st <;> simp [bandsAt, same]

/-- A line state at rest is entered with nothing to give up: the Sequencer and the Splice Unit idle, the zones out of band. -/
theorem State.enterLine_quiet {s : State} {st : LineState} (notRun : st ≠ .run) (seq : s.seq.state = .idle)
    (splice : s.splice.state = .idle) (zones : ∀ z ∈ s.steam.zones, z.inBand = false) :
    s.enterLine st = { s with line := { s.line with state := st } } := by
  have rested : s.resting st = { s with line := { s.line with state := st } } := by
    rw [State.resting_of_notMatching (by simp [splice]), bandsAt_of_out zones]
  rw [State.enterLine_resting s notRun, rested]
  split
  · exact State.heldAbort_idle (by simp [seq])
  · rfl

/-- CONFIG_BAD in STARTING, with the Sequencer, the Splice Unit and the zones at their reset values. -/
theorem State.configBad_starting {s : State} (starting : s.line.state = .starting) (seq : s.seq.state = .idle)
    (splice : s.splice.state = .idle) (zones : s.steam.zones = []) :
    s.configBad =
      { s with
        boot := { s.boot with phase := .stopped, cfgSelect := false, cfgSent := [] }
        line := { s.line with state := .held, haltOrigin := s.boot.index.setWidth 8 }
        events := s.events.set .configBad
        link := ((s.flag .configBad).raiseHalt .configBad).link } := by
  have latched : s.latch .configBad = (s.flag .configBad).raiseHalt .configBad := by
    rw [State.latch_halt rfl, State.haltLine_rests (s := s.flag .configBad) (.inr (.inr starting))]
  unfold State.configBad
  rw [latched, State.enterLine_quiet (st := .held) nofun (by simpa using seq) (by simpa using splice) (by simp [zones])]
  unfold State.raiseHalt
  split <;> rfl

/-- Settles O14. -/
theorem startUpSamplesTheStraps : Obligations.StartUpSamplesTheStraps := by
  refine fun s straps inReset => ⟨fun strapped => ?_, fun starting seq splice zones => ?_⟩
  · change Host.Outcome.next (if _ then _ else _) = _
    rw [if_pos inReset, if_neg strapped]
    rfl
  · change Host.Outcome.next (if _ then _ else _) = _
    rw [if_pos inReset, if_pos rfl, State.configBad_starting (s := { s with boot := { s.boot with index := 0 } }) starting seq splice zones,
      State.raiseHalt_closed (.inr rfl)]
    rfl

end Sys2Proof.Machine
end

section
/-! SUPPORT. What follows a change of the local or of a measured speed (R49 to R52, R189, R190), and the commands of the encoders and of the
ramp. -/

namespace Sys2Proof.Machine

/-! ### The conditions -/

theorem State.localSpeed_congr {s t : State} (vCmd : t.line.vCmd = s.line.vCmd) (qIn : t.line.qIn = s.line.qIn) :
    t.localSpeed = s.localSpeed := by
  simp only [State.localSpeed, State.toLocal, vCmd, qIn]

theorem State.driveCondition_congr {s t : State} (boot : t.boot = s.boot) (localSpeed : t.localSpeed = s.localSpeed)
    (speed : t.tracker.speed = s.tracker.speed) : t.driveCondition = s.driveCondition := by
  simp only [State.driveCondition, State.configured, boot, localSpeed, speed]

theorem State.matchCondition_congr {s t : State} (localSpeed : t.localSpeed = s.localSpeed)
    (speed : t.tracker.surfaceSpeed = s.tracker.surfaceSpeed) : t.matchCondition = s.matchCondition := by
  simp only [State.matchCondition, localSpeed, speed]

/-! ### After a change of speed -/

section
variable {s u : State}

theorem State.afterSpeeds_localSpeed : (State.afterSpeeds s u).localSpeed = u.localSpeed :=
  State.localSpeed_congr (by simp) (by simp)

theorem State.afterSpeeds_driveCondition : (State.afterSpeeds s u).driveCondition = u.driveCondition :=
  State.driveCondition_congr (by simp) State.afterSpeeds_localSpeed (by simp)

theorem State.afterSpeeds_matchCondition : (State.afterSpeeds s u).matchCondition = u.matchCondition :=
  State.matchCondition_congr State.afterSpeeds_localSpeed (by simp)

theorem State.followLocal_step0 :
    (State.followLocal s u).step0 =
      if u.localSpeed ≠ s.localSpeed ∧ u.cfg.feedDrive = true then u.step0.place (divisorFor u.cfg.feedTicksPerStep u.localSpeed)
      else u.step0 := by
  unfold State.followLocal
  by_cases same : u.localSpeed = s.localSpeed
  · simp [same]
  · have fed : u.feedStep.step0 =
        if u.cfg.feedDrive = true then u.step0.place (divisorFor u.cfg.feedTicksPerStep u.localSpeed) else u.step0 := by
      unfold State.feedStep
      split <;> rfl
    rw [if_neg same]
    simp only [ne_eq, same, not_false_eq_true, true_and, ← fed]
    split
    · unfold State.setVNew
      split <;> rfl
    · unfold State.setVNew
      split <;> rfl
    all_goals rfl

theorem State.setVNew_vNew (v : Nat) : (s.setVNew v).splice.vNew = v := by
  unfold State.setVNew
  split
  · next same => exact same.symm
  · rfl

theorem State.followLocal_vNew (rolling : u.splice.state = .pasting ∨ u.splice.state = .cutting) (changed : u.localSpeed ≠ s.localSpeed) :
    (State.followLocal s u).splice.vNew = u.localSpeed := by
  have same : u.feedStep.localSpeed = u.localSpeed := State.localSpeed_congr (by simp) (by simp)
  unfold State.followLocal
  rw [if_neg changed]
  dsimp only
  rw [show u.feedStep.splice.state = u.splice.state by simp]
  rcases rolling with state | state <;> rw [state] <;> exact (State.setVNew_vNew _).trans same

theorem State.superviseMatch_timer (old : State) :
    (State.superviseMatch old u).splice.matchTimer =
      if u.splice.state = .matching then conditionTimer old.matchCondition u.matchCondition 200000 u.splice.matchTimer
      else u.splice.matchTimer := by
  unfold State.superviseMatch
  split <;> simp_all

theorem State.afterSpeeds_step0 :
    (State.afterSpeeds s u).step0 =
      if u.localSpeed ≠ s.localSpeed ∧ u.cfg.feedDrive = true then u.step0.place (divisorFor u.cfg.feedTicksPerStep u.localSpeed)
      else u.step0 := by
  rw [← State.followLocal_step0]
  simp [State.afterSpeeds]

theorem State.afterSpeeds_driveTimer :
    (State.afterSpeeds s u).line.driveTimer = conditionTimer s.driveCondition u.driveCondition 500000 u.line.driveTimer := by
  have condition : (State.followLocal s u).driveCondition = u.driveCondition :=
    State.driveCondition_congr (by simp) (State.localSpeed_congr (by simp) (by simp)) (by simp)
  simp [State.afterSpeeds, State.superviseDrive, condition]

theorem State.afterSpeeds_matchTimer (matching : u.splice.state = .matching) :
    (State.afterSpeeds s u).splice.matchTimer = conditionTimer s.matchCondition u.matchCondition 200000 u.splice.matchTimer := by
  have condition : (State.superviseDrive s (State.followLocal s u)).matchCondition = u.matchCondition :=
    State.matchCondition_congr (State.localSpeed_congr (by simp) (by simp)) (by simp)
  rw [State.afterSpeeds, State.superviseMatch_timer, condition]
  simp [matching]

theorem State.afterSpeeds_vNew (rolling : u.splice.state = .pasting ∨ u.splice.state = .cutting) (changed : u.localSpeed ≠ s.localSpeed) :
    (State.afterSpeeds s u).splice.vNew = u.localSpeed := by
  rw [← State.followLocal_vNew rolling changed]
  simp [State.afterSpeeds]

/-- Everything that follows a change of speed, when what it starts from has the step generator and the timers of `s`. -/
theorem State.afterSpeeds_speedsFollowed (cfg : u.cfg = s.cfg) (step0 : u.step0 = s.step0)
    (drive : u.line.driveTimer = s.line.driveTimer)
    (matchTimer : u.splice.state = .matching → u.splice.matchTimer = s.splice.matchTimer) :
    s.speedsFollowed (State.afterSpeeds s u) := by
  have state : (State.afterSpeeds s u).splice.state = u.splice.state := by simp
  rw [State.speedsFollowed, State.afterSpeeds_localSpeed, State.afterSpeeds_driveCondition, State.afterSpeeds_matchCondition,
    State.afterSpeeds_step0, State.afterSpeeds_driveTimer, state, cfg, step0, drive]
  refine ⟨fun kept => if_neg (by rcases kept with same | unfitted <;> simp [*]), fun changed fitted => if_pos ⟨changed, fitted⟩,
    fun off => by simp [off, conditionTimer], fun on => by simp [on, conditionTimer], fun matching => ?_, State.afterSpeeds_vNew⟩
  rw [State.afterSpeeds_matchTimer matching, matchTimer matching, conditionTimer]

theorem State.afterSpeeds_isLast : (State.afterSpeeds s u).isLast = u.isLast := State.isLast_congr (by simp) (by simp)

theorem State.sameBlade.afterSpeeds {old : State} (h : s.sameBlade u) : s.sameBlade (State.afterSpeeds old u) where
  boot := by simp [h.boot]
  cfg := by simp [h.cfg]
  isLast := State.afterSpeeds_isLast.trans h.isLast
  fifo := by simp [h.fifo]
  map := by simp [h.map]
  plan := by simp [h.plan]
  seq := by simp [h.seq]

/-- Without a change of the local speed the two supervisions alone follow. -/
theorem State.afterSpeeds_of_sameLocal (same : u.localSpeed = s.localSpeed) :
    State.afterSpeeds s u =
      { u with
        splice := { u.splice with matchTimer := (State.afterSpeeds s u).splice.matchTimer }
        line := { u.line with driveTimer := (State.afterSpeeds s u).line.driveTimer } } := by
  have followed : State.followLocal s u = u := if_pos same
  unfold State.afterSpeeds
  rw [followed]
  unfold State.superviseMatch
  split <;> rfl

end

end Sys2Proof.Machine
end

section
/-! SUPPORT. The ramp, drive supervision, the step generators and the encoders (R45, R49 to R58, R185). -/

namespace Sys2Proof.Machine

/-! ### A move of the line behind a change of speed -/

/-- A move of the line that leaves the speeds as they are, and MATCHING at most, keeps what follows a change of speed. -/
theorem State.speedsFollowed.move {s u t : State} (h : s.speedsFollowed u) (vCmd : t.line.vCmd = u.line.vCmd)
    (qIn : t.line.qIn = u.line.qIn) (step0 : t.step0 = u.step0) (boot : t.boot = u.boot) (speed : t.tracker.speed = u.tracker.speed)
    (surfaceSpeed : t.tracker.surfaceSpeed = u.tracker.surfaceSpeed) (drive : t.line.driveTimer = u.line.driveTimer)
    (splice : t.splice = u.splice ∨ t.splice.state = .armed) : s.speedsFollowed t := by
  have localSpeed := State.localSpeed_congr vCmd qIn
  obtain ⟨kept, placed, off, on, matching, rolling⟩ := h
  rw [State.speedsFollowed, localSpeed, State.driveCondition_congr boot localSpeed speed,
    State.matchCondition_congr localSpeed surfaceSpeed, step0, drive]
  refine ⟨kept, placed, off, on, fun state => ?_, fun state changed => ?_⟩
  · rcases splice with same | armed
    · rw [same] at state ⊢
      exact matching state
    · exact absurd (armed.symm.trans state) nofun
  · rcases splice with same | armed
    · rw [same] at state ⊢
      exact rolling state changed
    · rw [armed] at state
      simp at state

theorem State.resting_splice (s : State) (st : LineState) : (s.resting st).splice = s.splice ∨ (s.resting st).splice.state = .armed := by
  by_cases matching : s.splice.state = .matching
  · exact .inr (State.resting_of_matching matching st).1
  · exact .inl (by rw [State.resting_of_notMatching matching])

theorem State.haltLine_splice (s : State) (origin : Byte) :
    (s.haltLine origin).splice = s.splice ∨ (s.haltLine origin).splice.state = .armed := by
  by_cases moves : s.line.state = .run ∨ s.line.state = .stopping ∨ s.line.state = .standby
  · rw [(State.haltLine_halted origin moves).2]
    exact State.resting_splice { s with line := { s.line with haltOrigin := origin } } _
  · rw [State.haltLine_rests (by cases state : s.line.state <;> simp_all)]
    exact .inl rfl

theorem State.latch_splice (s : State) (e : Event) : (s.latch e).splice = s.splice ∨ (s.latch e).splice.state = .armed := by
  by_cases halt : e.isHalt = true
  · rw [State.latch_halt halt]
    simpa using (s.flag e).haltLine_splice s.ownIndex
  · rw [State.latch_report (by simpa using halt)]
    exact .inl rfl

/-! ### STOPPING and HALTING at v_cmd 0 (R39) -/

/-- The state that STOPPING and HALTING pass on to. -/
def LineState.passed : LineState → LineState
  | .stopping => .standby
  | .halting => .held
  | st => st

theorem State.passOn_cases (s : State) :
    s.passOn = s ∧ (s.line.vCmd = 0 → s.line.state.passed = s.line.state) ∨
      s.line.vCmd = 0 ∧ s.line.state = .stopping ∧ s.passOn = s.resting .standby ∨
      s.line.vCmd = 0 ∧ s.line.state = .halting ∧ s.passOn = (s.resting .held).heldAbort := by
  unfold State.passOn
  split
  · next still =>
    split
    · next state => exact .inr (.inl ⟨still, state, s.enterLine_resting nofun⟩)
    · next state => exact .inr (.inr ⟨still, state, s.enterLine_resting nofun⟩)
    all_goals next state => exact .inl ⟨rfl, fun _ => by rw [state]; rfl⟩
  · next moving => exact .inl ⟨rfl, fun still => absurd still moving⟩

theorem State.passOn_state (s : State) : s.passOn.line.state = if s.line.vCmd = 0 then s.line.state.passed else s.line.state := by
  rcases s.passOn_cases with ⟨same, passed⟩ | ⟨still, state, goes⟩ | ⟨still, state, goes⟩
  · rw [same]
    split
    · next still => exact (passed still).symm
    · rfl
  · rw [goes, if_pos still, state, State.resting_frame]
    rfl
  · rw [goes, if_pos still, state, State.heldAbort_frame, State.resting_frame]
    rfl

theorem State.passOn_heldRule (s : State) : s.heldRule s.passOn := by
  rcases s.passOn_cases with ⟨same, -⟩ | ⟨-, state, goes⟩ | ⟨-, state, goes⟩
  · rw [same]
    exact State.heldRule_of_same .rfl id
  · rw [goes]
    refine State.heldRule_of_same (State.sameBlade.rfl.resting _) ?_
    rw [State.resting_frame]
    nofun
  · rw [goes]
    refine State.heldAbort_heldRule (State.sameBlade.rfl.resting _) (by simp [state]) ?_
    rw [State.resting_frame]

theorem State.passOn_splice (s : State) : s.passOn.splice = s.splice ∨ s.passOn.splice.state = .armed := by
  rcases s.passOn_cases with ⟨same, -⟩ | ⟨-, -, goes⟩ | ⟨-, -, goes⟩
  · exact .inl (by rw [same])
  · rw [goes]
    exact s.resting_splice _
  · rw [goes, State.heldAbort_frame]
    exact s.resting_splice _

/-! ### The ramp (R45) -/

theorem State.ramped_cases (s : State) :
    (s.line.vCmd < s.target → s.ramped = min s.target (s.line.vCmd + s.cfg.acc)) ∧
      (s.target < s.line.vCmd → s.line.state ≠ .halting → s.ramped = max s.target (s.line.vCmd - s.cfg.dec)) ∧
      (s.target < s.line.vCmd → s.line.state = .halting → s.ramped = max s.target (s.line.vCmd - s.cfg.decFast)) ∧
      (s.line.vCmd = s.target → s.ramped = s.line.vCmd) := by
  unfold State.ramped
  refine ⟨fun below => if_pos below, fun above notHalting => ?_, fun above halting => ?_, fun same => ?_⟩
  · rw [if_neg (Nat.not_lt.2 above.le), if_pos above]
    cases state : s.line.state <;> simp_all
  · rw [if_neg (Nat.not_lt.2 above.le), if_pos above, halting]
  · rw [if_neg same.not_lt, if_neg same.not_gt]

/-- Settles O23. -/
theorem rampMovesTowardTheTarget : Obligations.RampMovesTowardTheTarget := by
  intro s runs
  let u := State.afterSpeeds s { s with line := { s.line with vCmd := s.ramped } }
  have vCmd : u.passOn.line.vCmd = s.ramped := by simp [u]
  obtain ⟨up, down, fast, stays⟩ := s.ramped_cases
  have followed : s.speedsFollowed u := State.afterSpeeds_speedsFollowed rfl rfl rfl fun _ => rfl
  have same : s.sameBlade u := State.sameBlade.afterSpeeds ⟨rfl, rfl, rfl, rfl, rfl, rfl, rfl⟩
  refine ⟨u.passOn, congrArg Host.Outcome.next (if_pos runs), ?_, ?_, ?_, ?_, ?_, ?_, ?_, ?_, ?_, ?_, ?_, ?_, ?_, ?_, ?_⟩
  · rwa [vCmd]
  · rwa [vCmd]
  · rwa [vCmd]
  · rwa [vCmd]
  · rw [State.passOn_state, vCmd]
    simp only [u, State.afterSpeeds_same]
    cases s.line.state <;> rfl
  · exact followed.move (by simp) (by simp) (by simp) (by simp) (by simp) (by simp) (by simp) u.passOn_splice
  · exact same.heldRule (by simp [u]) u.passOn_heldRule
  all_goals simp [u]

/-! ### Drive supervision and the step generators (R49 to R52, R190) -/

theorem lt_absDiff_iff (a b c : Nat) : c < absDiff a b ↔ a + c < b ∨ b + c < a := by
  unfold absDiff
  split <;> omega

theorem absDiff_le_iff (a b c : Nat) : absDiff a b ≤ c ↔ a ≤ b + c ∧ b ≤ a + c := by
  unfold absDiff
  split <;> omega

theorem State.driveCondition_iff (s : State) :
    s.driveCondition = true ↔ s.configured = true ∧ 1000 ≤ s.localSpeed ∧
      (s.tracker.speed + s.localSpeed / 4 < s.localSpeed ∨ s.localSpeed + s.localSpeed / 4 < s.tracker.speed) := by
  simp only [State.driveCondition, Bool.and_eq_true, decide_eq_true_eq, and_assoc, lt_absDiff_iff]

theorem State.matchCondition_iff (s : State) :
    s.matchCondition = true ↔ 1000 ≤ s.localSpeed ∧ s.tracker.surfaceSpeed ≤ s.localSpeed + s.localSpeed / 64 ∧
      s.localSpeed ≤ s.tracker.surfaceSpeed + s.localSpeed / 64 := by
  simp only [State.matchCondition, Bool.and_eq_true, decide_eq_true_eq, absDiff_le_iff]

theorem divisorFor_eq (ticks v : Nat) :
    divisorFor ticks v =
      if v = 0 ∨ 65535 < 8000000 * ticks / (2 * v) - 1 then .idle else .value (max 1 (8000000 * ticks / (2 * v) - 1)) := by
  unfold divisorFor
  grind

/-- Settles O27. -/
theorem driveFaultAndStepPeriods : Obligations.DriveFaultAndStepPeriods := by
  refine ⟨fun s => ⟨fun runs => ?_, fun n d use => ?_, fun n d use => ?_, rfl, s.driveCondition_iff, s.matchCondition_iff⟩,
    fun ticks v n value => value ▸ divisorFor_eq ticks v, fun g n d => ⟨fun idle => ?_, fun use => ?_, fun idle => ?_⟩⟩
  · let u : State := { s with line := { s.line with driveTimer := none } }
    obtain ⟨running, standing⟩ := latch_haltsTheLine u (e := .driveFault) rfl
    exact ⟨u.latch .driveFault, congrArg Host.Outcome.next (if_pos runs), by simp [u], State.latch_has, fun moving => (running moving).1,
      fun stands => (standing stands).1, by simp [u], by simp [u],
      State.sameBlade.heldRule (s := s) (u := u) ⟨rfl, rfl, rfl, rfl, rfl, rfl, rfl⟩ rfl State.latch_heldRule, by simp [u], by simp [u],
      by simp [u]⟩
  · exact congrArg (fun g : Stepper => Host.Outcome.next { s with step0 := g.endPeriod }) use
  · exact congrArg (fun g : Stepper => Host.Outcome.next { s with step1 := g.endPeriod }) use
  · simp only [Stepper.place, idle]
  · simp only [Stepper.place, use]
  · simp only [Stepper.place, idle]

/-! ### The encoders (R53 to R58, R185) -/

theorem Roll.count_eq (r : Roll) (n : Nat) :
    (r.state = .active ∨ r.state = .expiring → r.count n = { r with remaining := r.remaining.map fun m => m - n }) ∧
      (r.state = .empty ∨ r.state = .loaded → r.count n = r) := by
  unfold Roll.count
  cases r.state <;> simp

/-- Settles O29. -/
theorem forwardEdgesPayTheDebtThenAdvance : Obligations.ForwardEdgesPayTheDebtThenAdvance := by
  intro s count configured
  have sameLocal : (s.forward count.toNat).localSpeed = s.localSpeed := rfl
  have tracker : (State.afterSpeeds s (s.forward count.toNat)).tracker = (s.forward count.toNat).tracker := by simp
  have rolls (side : Side) : (State.afterSpeeds s (s.forward count.toNat)).splice.roll side = (s.splice.roll side).count s.advanceOf := by
    cases side <;> simp [State.forward]
  refine ⟨_, s.advanceOf, congrArg Host.Outcome.next (if_pos configured), fun owed => ?_, fun free => ?_, ?_, ?_, fun stopped => ?_,
    fun timing => ?_, fun side => ?_, ?_, ?_⟩
  · rw [tracker]
    exact ⟨Nat.sub_eq_zero_of_le owed, rfl⟩
  · rw [tracker]
    exact ⟨rfl, Nat.sub_eq_zero_of_le free.le⟩
  · rw [tracker]
    rfl
  · rw [tracker]
    rfl
  · rw [tracker]
    exact if_neg (by simp [stopped])
  · rw [tracker]
    exact if_pos timing
  · rw [rolls]
    exact Roll.count_eq _ _
  · rw [tracker, State.afterSpeeds_of_sameLocal sameLocal]
    rfl
  · exact State.afterSpeeds_speedsFollowed rfl rfl rfl fun _ => rfl

/-- Settles O30. -/
theorem reverseEdgesAreOwed : Obligations.ReverseEdgesAreOwed := by
  intro s configured
  let u := State.afterSpeeds s s.backward
  have tracker : u.tracker = s.backward.tracker := by simp [u]
  have line : u.line.state = s.line.state ∧ u.line.vCmd = s.line.vCmd := by simp [u, State.backward]
  have rest : u.store = s.store ∧ u.dose = s.dose ∧ u.splice.rollA = s.splice.rollA ∧ u.splice.rollB = s.splice.rollB := by
    simp [u, State.backward]
  have followed : s.speedsFollowed u := State.afterSpeeds_speedsFollowed rfl rfl rfl fun _ => rfl
  have same : s.sameBlade u := State.sameBlade.afterSpeeds ⟨rfl, rfl, rfl, rfl, rfl, rfl, rfl⟩
  have taken : exec .reverseEdge s = .next (if 5000 < u.tracker.debt then u.latch .trackLost else u) :=
    congrArg Host.Outcome.next (if_pos configured)
  by_cases lost : 5000 < u.tracker.debt
  · rw [if_pos lost] at taken
    obtain ⟨running, -⟩ := latch_haltsTheLine u (e := .trackLost) rfl
    rw [line.1, line.2] at running
    refine ⟨_, taken, by simp [tracker, State.backward], by simp [tracker, State.backward], by simp [tracker, State.backward],
      by simp [tracker, State.backward, Capture.reset], by simp [rest], by simp [rest], by simp [line], by simp [rest],
      same.heldRule line.1 State.latch_heldRule, ?_, by simp [rest], fun _ => ⟨State.latch_has, fun moving => (running moving).1⟩,
      fun few => ?_⟩
    · exact followed.move (by simp) (by simp) (by simp) (by simp) (by simp) (by simp) (by simp) (u.latch_splice _)
    · have debt : (u.latch .trackLost).tracker.debt = u.tracker.debt := by simp
      omega
  · rw [if_neg lost] at taken
    refine ⟨_, taken, by rw [tracker]; rfl, by rw [tracker]; rfl, by rw [tracker]; rfl, by rw [tracker]; rfl, rest.2.2.1, rest.2.2.2,
      line.2, rest.1, State.heldRule_of_same same (by rw [line.1]; exact id), followed, rest.2.1, fun many => absurd many lost,
      fun _ => ?_⟩
    have alone : u = _ := State.afterSpeeds_of_sameLocal (s := s) (u := s.backward) rfl
    rw [tracker, alone]
    rfl

end Sys2Proof.Machine
end

section
/-! SUPPORT. The capture timers and the surface encoder; a good block taken into force; the end of LISTEN; RUN and STOP (R27, R29, R31, R35,
R36, R53, R57, R58). -/

namespace Sys2Proof.Machine

/-! ### The captures (R53, R57, R58) -/

theorem Capture.overflow_cases (c : Capture) (timing : c.timing = true) (speed : Nat) :
    (c.overflows < 3 → c.overflow = { timing := true, timer := 0, overflows := c.overflows + 1 } ∧ c.speedAtOverflow speed = speed) ∧
      (3 ≤ c.overflows → c.overflow.timing = false ∧ c.speedAtOverflow speed = 0) := by
  unfold Capture.overflow Capture.speedAtOverflow
  refine ⟨fun few => ?_, fun many => ?_⟩
  · simp [Nat.not_le.2 few, timing]
  · simp [many, Capture.reset]

theorem followingLevels_eq (q : Quad) : followingLevels q = ⟨!q.b, q.a⟩ := by
  obtain ⟨a, b⟩ := q
  cases a <;> cases b <;> rfl

theorem judgeEdge_forward (x y : Bool) : judgeEdge ⟨x, y⟩ ⟨!y, x⟩ = some .forward := by
  cases x <;> cases y <;> rfl

theorem judgeEdge_reverse (x y : Bool) : judgeEdge ⟨x, y⟩ ⟨y, !x⟩ = some .reverse := by
  cases x <;> cases y <;> rfl

theorem judgeEdge_none {before after : Quad} (still : before.isEdge after = false) : judgeEdge before after = none := by
  obtain ⟨x, y⟩ := before
  obtain ⟨z, w⟩ := after
  revert still
  cases x <;> cases y <;> cases z <;> cases w <;> decide

/-- A surface edge that is judged drives the surface capture, and the supervisions follow. -/
theorem surfaceEncoderEdge_judged {s : State} {before after : Quad} {d : Direction} (configured : s.configured = true)
    (unwind : s.cfg.unwind = true) (judged : judgeEdge before after = some d) (count : BitVec 16) :
    exec (.surfaceEncoderEdge before after count) s = .next (State.afterSpeeds s (s.surfaceEdge d count.toNat)) := by
  change Host.Outcome.next (if _ then match judgeEdge before after with | some _ => _ | none => _ else _) = _
  simp [configured, unwind, judged]

/-- A change of a capture and its measured speed alone: the two supervisions follow. -/
theorem State.afterSpeeds_tracker (s : State) (t : Tracker) :
    State.afterSpeeds s { s with tracker := t } =
        { s with
          tracker := t
          splice := { s.splice with matchTimer := (State.afterSpeeds s { s with tracker := t }).splice.matchTimer }
          line := { s.line with driveTimer := (State.afterSpeeds s { s with tracker := t }).line.driveTimer } } ∧
      s.speedsFollowed (State.afterSpeeds s { s with tracker := t }) :=
  ⟨State.afterSpeeds_of_sameLocal rfl, State.afterSpeeds_speedsFollowed rfl rfl rfl fun _ => rfl⟩

/-- Settles O31. -/
theorem capturesOverflowAndTheSurfaceIsMeasured : Obligations.CapturesOverflowAndTheSurfaceIsMeasured := by
  refine ⟨fun s configured => ⟨fun timing => ?_, fun unwind timing => ?_⟩,
    fun s before after count => ⟨fun still => ?_, fun configured unwind => ⟨fun x y hb ha => ?_, fun x y hb ha => ?_⟩⟩⟩
  · obtain ⟨few, many⟩ := s.tracker.web.overflow_cases timing s.tracker.speed
    obtain ⟨frame, followed⟩ := s.afterSpeeds_tracker
      { s.tracker with web := s.tracker.web.overflow, speed := s.tracker.web.speedAtOverflow s.tracker.speed }
    have taken : exec (.captureTimerOverflow .web) s = .next (State.afterSpeeds s _) :=
      congrArg Host.Outcome.next (if_pos (by simp [configured, timing]))
    rw [frame] at taken followed
    exact ⟨_, taken, few, many, rfl, followed⟩
  · obtain ⟨few, many⟩ := s.tracker.surface.overflow_cases timing s.tracker.surfaceSpeed
    obtain ⟨frame, followed⟩ := s.afterSpeeds_tracker
      { s.tracker with
        surface := s.tracker.surface.overflow, surfaceSpeed := s.tracker.surface.speedAtOverflow s.tracker.surfaceSpeed }
    have taken : exec (.captureTimerOverflow .surface) s = .next (State.afterSpeeds s _) :=
      congrArg Host.Outcome.next (if_pos (by simp [configured, unwind, timing]))
    rw [frame] at taken followed
    exact ⟨_, taken, few, many, rfl, followed⟩
  · change Host.Outcome.next (if _ then match judgeEdge before after with | some _ => _ | none => _ else _) = _
    rcases still with unfitted | still
    · simp [unfitted]
    · simp [judgeEdge_none still]
  · subst hb ha
    obtain ⟨frame, followed⟩ := s.afterSpeeds_tracker (s.surfaceEdge .forward count.toNat).tracker
    have taken := surfaceEncoderEdge_judged configured unwind (judgeEdge_forward x y) count
    rw [show s.surfaceEdge .forward count.toNat = { s with tracker := (s.surfaceEdge .forward count.toNat).tracker } from rfl,
      frame] at taken
    rw [frame] at followed
    exact ⟨_, taken, rfl, rfl, rfl, followed⟩
  · subst hb ha
    obtain ⟨frame, followed⟩ := s.afterSpeeds_tracker (s.surfaceEdge .reverse count.toNat).tracker
    have taken := surfaceEncoderEdge_judged configured unwind (judgeEdge_reverse x y) count
    rw [show s.surfaceEdge .reverse count.toNat = { s with tracker := (s.surfaceEdge .reverse count.toNat).tracker } from rfl,
      frame] at taken
    rw [frame] at followed
    exact ⟨_, taken, rfl, rfl, rfl, followed⟩

/-! ### The block's two ends (R24 to R27, R31) -/

theorem rosterPeers_peer (l : LineControl) (index : BitVec 4) (roster : BitVec 16) (timer : Timer) (i : BitVec 4) :
    LineControl.peer { l with peers := rosterPeers index roster l.peers, rampTimer := timer } i =
      { l.peer i with member := inSet roster i, state := if i = index then .fresh else (l.peer i).state } := by
  simp only [LineControl.peer, rosterPeers, Vector.getElem_ofFn, inSet, BitVec.toNat_inj]

/-- Settles O15. -/
theorem configurationIsTakenOrStops : Obligations.ConfigurationIsTakenOrStops := by
  refine ⟨fun s words c reading good => ?_, fun s words reading bad strapped isOpen starting seq splice zones => ?_⟩
  · have taken : exec (.configReadComplete words) s = .next (s.configGood c) := by
      change Host.Outcome.next (if _ then match readBlock s.boot.index words with | some _ => _ | none => _ else _) = _
      simp only [reading, if_true, good]
    have fresh {z : Zone} (mem : z ∈ c.zones.map freshZone) : ∃ y, freshZone y = z := by
      obtain ⟨y, -, same⟩ := List.mem_map.1 mem
      exact ⟨y, same⟩
    refine ⟨s.configGood c, taken, rfl, rfl, rfl, rfl, rfl, rfl, rfl, rfl, rfl, rfl, fun i => ?_, ?_, fun z zone found good => ?_,
      fun z mem => ?_, fun fitted => ?_, fun unfitted => ?_, rfl⟩
    · rw [State.configGood, rosterPeers_peer]
      exact ⟨rfl, rfl⟩
    · simp [State.configGood, freshZone, Function.comp_def]
    · obtain ⟨y, rfl⟩ := fresh (List.mem_of_getElem? found)
      rw [State.valveLevel, found]
      simp only [show (s.configGood c).events = s.events from rfl, good]
      cases active : y.activeLow <;> simp [freshZone, active]
    · obtain ⟨y, rfl⟩ := fresh mem
      exact ⟨rfl, rfl, rfl, rfl, rfl, rfl, rfl, rfl⟩
    · simp [State.configGood, fitted]
    · simp [State.configGood, unfitted]
  · change Host.Outcome.next (if _ then match readBlock s.boot.index words with | some _ => _ | none => _ else _) = _
    simp only [reading, if_true, bad]
    rw [State.configBad_starting starting seq splice zones, State.raiseHalt_open (s := s.flag .configBad) isOpen strapped]
    rfl

/-! ### The end of LISTEN, RUN and STOP (R29, R35, R36, R46) -/

theorem State.retakeQIn_eq (s : State) : s.retakeQIn = { s with line := { s.line with qIn := s.retakeQIn.line.qIn } } := by
  unfold State.retakeQIn
  (repeat' split) <;> rfl

theorem State.retakeQIn_held {s : State} (held : s.boot.phase ≠ .done ∨ s.cfg.origin = true ∨ s.nearestFresh = none) :
    s.retakeQIn.line.qIn = s.line.qIn := by
  unfold State.retakeQIn
  split
  · next taking =>
    simp only [State.ready, Bool.and_eq_true, decide_eq_true_eq, Bool.not_eq_true'] at taking
    simp [taking.1, taking.2] at held
    simp [held]
  · rfl

theorem State.retakeQIn_takes {s : State} (done : s.boot.phase = .done) (notOrigin : s.cfg.origin = false) {i : BitVec 4} {v : Nat}
    (nearest : s.nearestFresh = some i) (qOut : (s.line.peer i).qOut = some v) : s.retakeQIn.line.qIn = clamp 1 65536 v := by
  simp [State.retakeQIn, State.ready, done, notOrigin, nearest, qOut]

/-- Settles O18. -/
theorem listenEndsInStandbyOrHeld : Obligations.ListenEndsInStandbyOrHeld := by
  intro s listen runs seq splice zones
  let u : State := { s with boot := { s.boot with phase := .done, listenTimer := none } }
  refine ⟨u.retakeQIn.line.qIn, fun kept => State.retakeQIn_held (s := u) (.inr kept),
    fun notOrigin i v nearest qOut => State.retakeQIn_takes (s := u) rfl notOrigin nearest qOut, ?_⟩
  have taken : exec .listenTimerExpiry s = .next
      (if u.retakeQIn.events.anyHalt then
        State.enterLine { u.retakeQIn with line := { u.retakeQIn.line with haltOrigin := u.retakeQIn.ownIndex } } .held
      else u.retakeQIn.enterLine .standby) := congrArg Host.Outcome.next (if_pos ⟨listen, runs⟩)
  have quiet (st : LineState) (notRun : st ≠ .run) (origin : Byte) :
      State.enterLine { u with line := { u.line with qIn := u.retakeQIn.line.qIn, haltOrigin := origin } } st =
        { u with line := { u.line with qIn := u.retakeQIn.line.qIn, haltOrigin := origin, state := st } } :=
    State.enterLine_quiet notRun seq splice zones
  rw [taken, State.retakeQIn_eq u]
  split
  · exact congrArg Host.Outcome.next (quiet .held nofun _)
  · exact congrArg Host.Outcome.next (quiet .standby nofun s.line.haltOrigin)

theorem State.tryMatching_frame (s : State) :
    s.tryMatching = { s with splice := s.tryMatching.splice, step1 := s.tryMatching.step1 } := by
  unfold State.tryMatching State.setVNew
  dsimp only
  split
  · split <;> rfl
  · rfl

theorem State.tryMatching_matches {s : State} (armed : s.splice.state = .armed) (loaded : s.splice.incomingLoaded = true)
    (run : s.line.state = .run) :
    s.tryMatching.splice.state = .matching ∧ s.tryMatching.splice.vNew = 0 ∧ s.tryMatching.splice.rampTimer = some 1000 ∧
      s.tryMatching.splice.matchTimeout = some 10000000 ∧
      s.tryMatching.splice.matchTimer = if s.matchCondition then some 200000 else none := by
  have condition : (s.setVNew 0).matchCondition = s.matchCondition :=
    State.matchCondition_congr (State.localSpeed_congr (by simp) (by simp)) (by simp)
  have goes : s.tryMatching = _ := if_pos ⟨armed, loaded, run⟩
  rw [goes, ← condition]
  exact ⟨rfl, State.setVNew_vNew 0, rfl, rfl, rfl⟩

theorem State.tryMatching_stays {s : State} (stays : ¬ (s.splice.state = .armed ∧ s.splice.incomingLoaded = true ∧ s.line.state = .run)) :
    s.tryMatching = s :=
  if_neg stays

theorem State.enterLine_run (s : State) :
    s.enterLine .run =
      if s.splice.state = .armed then State.tryMatching { s with line := { s.line with state := .run } }
      else { s with line := { s.line with state := .run } } := by
  simp only [State.enterLine, State.spliceOnLine, bandsAt]
  cases s.splice.state <;> rfl

theorem State.enterStopping_passOn (s : State) :
    State.passOn (s.enterLine .stopping) = if s.line.vCmd = 0 then s.resting .standby else s.resting .stopping := by
  rw [State.enterLine_resting s (st := .stopping) (by decide), if_neg (by decide), State.passOn, State.resting_frame]
  dsimp only
  split
  · rw [← State.resting_frame, State.enterLine_resting _ (st := .standby) (by decide), if_neg (by decide),
      State.resting_resting s rfl]
  · rfl

/-- RUN in STANDBY with all ready (R35, R188). -/
theorem State.takeRun_taken {s : State} (standby : s.line.state = .standby) (clear : s.events.anyHalt = false)
    (heard : s.line.allHeard = true) (v : Nat) :
    s.takeRun v = State.enterLine { s with line := { s.line with setpoint := min v s.cfg.maxSpeed } } .run := by
  have limited : clamp 0 s.cfg.maxSpeed v = min v s.cfg.maxSpeed := by
    unfold clamp
    grind
  simp only [State.takeRun, standby, clear, heard, limited, and_self, if_true]

theorem State.takeRun_notReady {s : State} (standby : s.line.state = .standby)
    (notReady : s.events.anyHalt = true ∨ s.line.allHeard = false) (v : Nat) : s.takeRun v = s.refuse .run .notReady := by
  rcases notReady with halted | silent
  · simp [State.takeRun, standby, halted]
  · simp [State.takeRun, standby, silent]

theorem State.takeRun_busy {s : State}
    (busy : s.line.state = .run ∨ s.line.state = .stopping ∨ s.line.state = .halting ∨ s.line.state = .held) (v : Nat) :
    s.takeRun v = s.refuse .run .badState := by
  unfold State.takeRun
  rcases busy with state | state | state | state <;> rw [state]

/-- What a RUN that is taken leaves (R35, R188). -/
theorem State.enterLine_run_spec (s : State) :
    (s.enterLine .run).line = { s.line with state := .run } ∧
      (s.splice.state = .armed → s.splice.incomingLoaded = true →
        (s.enterLine .run).splice.state = .matching ∧ (s.enterLine .run).splice.vNew = 0 ∧
          (s.enterLine .run).splice.rampTimer = some 1000 ∧ (s.enterLine .run).splice.matchTimeout = some 10000000) ∧
      (s.splice.state ≠ .armed → (s.enterLine .run).splice = s.splice ∧ (s.enterLine .run).step1 = s.step1) ∧
      s.enterLine .run =
        { s with line := (s.enterLine .run).line, splice := (s.enterLine .run).splice, step1 := (s.enterLine .run).step1 } := by
  rw [State.enterLine_run]
  split
  · next armed =>
    refine ⟨by rw [State.tryMatching_frame], fun _ loaded => ?_, fun notArmed => absurd armed notArmed, ?_⟩
    · obtain ⟨state, vNew, ramp, timeout, -⟩ :=
        State.tryMatching_matches (s := { s with line := { s.line with state := .run } }) armed loaded rfl
      exact ⟨state, vNew, ramp, timeout⟩
    · rw [State.tryMatching_frame]
  · next notArmed => exact ⟨rfl, fun armed => absurd armed notArmed, fun _ => ⟨rfl, rfl⟩, rfl⟩

/-- Settles O20: a RUN is taken or refused by cases, and a STOP leaves `State.resting` of the state it passes on to. -/
theorem runAndStopMoveTheLine : Obligations.RunAndStopMoveTheLine := by
  refine ⟨fun s bytes sender targets v heard => ?_, fun s bytes sender targets heard => ?_⟩
  · have taken : exec (.run bytes) s = .next (s.heard.takeRun v.toNat) := exec_takes heard
    refine ⟨fun standby clear ready => ?_, fun standby notReady => ?_, fun busy => ?_⟩
    · have noHalt : s.events.anyHalt = false := by
        rw [← Bool.not_eq_true, EventLatch.anyHalt_iff]
        rintro ⟨e, halt, has⟩
        exact absurd has (by simp [clear e halt])
      have allHeard : s.line.allHeard = true :=
        s.line.allHeard_eq_true_iff.2 fun i => LineControl.not_isMissing_of_heard (ready i)
      rw [State.takeRun_taken (s := s.heard) standby noHalt allHeard] at taken
      obtain ⟨line, matching, stays, frame⟩ :=
        State.enterLine_run_spec { s.heard with line := { s.line with setpoint := min v.toNat s.cfg.maxSpeed } }
      exact ⟨_, taken, line, matching, stays, frame⟩
    · rw [taken, State.takeRun_notReady (s := s.heard) standby ?_]
      · rfl
      · rcases notReady with halted | ⟨i, member, silent⟩
        · exact .inl ((EventLatch.anyHalt_iff _).2 halted)
        · refine .inr ?_
          rw [← Bool.not_eq_true, LineControl.allHeard_eq_true_iff]
          exact fun none => none i ((LineControl.isMissing_iff ..).2 ⟨member, silent⟩)
    · rw [taken, State.takeRun_busy (s := s.heard) busy]
      rfl
  · have taken : exec (.stop bytes) s = .next s.heard.takeStop := exec_takes heard
    refine ⟨fun run => ?_, fun rests => ?_⟩
    · have goes : s.heard.takeStop = if s.line.vCmd = 0 then s.heard.resting .standby else s.heard.resting .stopping := by
        refine .trans ?_ (State.enterStopping_passOn s.heard)
        rw [State.takeStop, show s.heard.line.state = .run from run]
      obtain ⟨st, atRest, goes⟩ : ∃ st, st = (if s.line.vCmd = 0 then .standby else .stopping) ∧ s.heard.takeStop = s.heard.resting st := by
        rw [goes]
        by_cases still : s.line.vCmd = 0
        · exact ⟨.standby, by simp [still], by simp [still]⟩
        · exact ⟨.stopping, by simp [still], by simp [still]⟩
      rw [goes] at taken
      refine ⟨_, taken, ?_, fun moving => ?_, fun still => ?_, fun matching => ?_, fun notMatching => ?_, ?_⟩
      · rw [State.resting_frame, atRest]
        rfl
      · rw [State.resting_frame, atRest, if_neg moving]
        rfl
      · rw [State.resting_frame, atRest, if_pos still]
        exact bandsAt_out (st := .standby) rfl _
      · obtain ⟨state, vNew, -⟩ := State.resting_of_matching (s := s.heard) matching st
        exact ⟨state, vNew⟩
      · rw [State.resting_of_notMatching (s := s.heard) notMatching]
        rfl
      · rw [State.resting_frame]
    · rw [taken, State.takeStop]
      rcases rests with state | state | state | state <;> rw [show s.heard.line.state = _ from state]

end Sys2Proof.Machine
end

section
/-! SUPPORT. The start-up scan: the highest version of each id, the marked slots and the counter (R117, R118). -/

namespace Sys2Proof.Machine

/-! ### The greatest of a list and a start value -/

theorem le_foldl_max (l : List Nat) (m : Nat) : m ≤ l.foldl max m := by
  induction l generalizing m with
  | nil => exact le_refl m
  | cons x xs ih => exact (le_max_left m x).trans (ih _)

theorem mem_le_foldl_max {l : List Nat} {x : Nat} (mem : x ∈ l) (m : Nat) : x ≤ l.foldl max m := by
  induction l generalizing m with
  | nil => cases mem
  | cons y ys ih =>
    rcases List.mem_cons.1 mem with rfl | later
    · exact (le_max_right m x).trans (le_foldl_max ys _)
    · exact ih later _

theorem foldl_max_mem (l : List Nat) (m : Nat) : l.foldl max m = m ∨ l.foldl max m ∈ l := by
  induction l generalizing m with
  | nil => exact .inl rfl
  | cons x xs ih =>
    rcases ih (max m x) with start | later
    · rcases max_choice m x with m_wins | x_wins
      · exact .inl (start.trans m_wins)
      · exact .inr (List.mem_cons.2 (.inl (start.trans x_wins)))
    · exact .inr (List.mem_cons_of_mem _ later)

/-! ### What the scan's reading finds -/

theorem NvRecord.complete_iff {r : NvRecord} : r.complete = true ↔ r.marker = true ∧ r.checkGood = true := Bool.and_eq_true_iff

/-- The order in which the scan prefers slots: the higher version, and the lower number of two equal ones. -/
def Store.scanRank (st : Store) (i : Fin 32) : Nat := ((st.cell i).elim 0 fun r => r.version) * 32 + (31 - i)

theorem Store.scanRank_of {st : Store} {i : Fin 32} {r : NvRecord} (cell : st.cell i = some r) :
    st.scanRank i = r.version * 32 + (31 - i) := by
  rw [Store.scanRank, cell]
  rfl

/-- Each id of a complete unretired slot stays in its slot of highest rank. -/
theorem Store.kept_best {st : Store} {i : Fin 32} {r : NvRecord} (candidate : st.candidate i = some r) :
    ∃ j q, st.kept j = some q ∧ q.pattern.id = r.pattern.id ∧ r.version ≤ q.version ∧ (r.version = q.version → j ≤ i) := by
  let rivals := Finset.univ.filter fun j => ∃ q, st.candidate j = some q ∧ q.pattern.id = r.pattern.id
  obtain ⟨j, among, best⟩ :=
    Finset.exists_max_image rivals st.scanRank ⟨i, Finset.mem_filter.2 ⟨Finset.mem_univ i, r, candidate, rfl⟩⟩
  obtain ⟨-, q, candidateJ, sameId⟩ := Finset.mem_filter.1 among
  have cell := (Store.candidate_eq_some.1 candidate).1
  have cellJ := (Store.candidate_eq_some.1 candidateJ).1
  have rankI := best i (Finset.mem_filter.2 ⟨Finset.mem_univ i, r, candidate, rfl⟩)
  rw [Store.scanRank_of cell, Store.scanRank_of cellJ] at rankI
  refine ⟨j, q, Store.kept_eq_some.2 ⟨candidateJ, fun k => ?_⟩, sameId, by omega, fun equal => Fin.le_def.2 (by omega)⟩
  rw [← Bool.not_eq_true, Store.outranks_iff]
  rintro ⟨p, candidateK, idK, above⟩
  have rankK := best k (Finset.mem_filter.2 ⟨Finset.mem_univ k, p, candidateK, idK.trans sameId⟩)
  rw [Store.scanRank_of (Store.candidate_eq_some.1 candidateK).1, Store.scanRank_of cellJ] at rankK
  rcases above with higher | ⟨equal, before⟩
  · omega
  · have := Fin.lt_def.1 before
    omega

theorem Store.scanned_valid_iff {st : Store} {i : Fin 32} :
    (st.scanned.record i).state = .valid ↔ (st.kept i).isSome = true := by
  rw [Store.scanned_record]
  cases st.kept i with
  | some r => exact ⟨fun _ => rfl, fun _ => rfl⟩
  | none => cases st.cell i <;> simp [SlotRecord.cleared]

theorem Store.scanned_whole {st : Store} {i : Fin 32} (valid : (st.scanned.record i).state = .valid) :
    ∃ r, st.cell i = some r ∧ r.marker = true ∧ r.checkGood = true ∧ r.retired = false ∧
      (st.scanned.record i).id = some r.pattern.id ∧ (st.scanned.record i).version = some r.version ∧
      (st.scanned.record i).count = some r.pattern.entries.length := by
  obtain ⟨r, kept⟩ := Option.isSome_iff_exists.1 (Store.scanned_valid_iff.1 valid)
  obtain ⟨cell, complete, retired⟩ := Store.candidate_eq_some.1 (Store.kept_eq_some.1 kept).1
  obtain ⟨marker, good⟩ := NvRecord.complete_iff.1 complete
  rw [Store.scanned_record, kept]
  exact ⟨r, cell, marker, good, retired, rfl, rfl, rfl⟩

theorem Store.scanned_single {st : Store} {i j : Fin 32} (hi : (st.scanned.record i).state = .valid)
    (hj : (st.scanned.record j).state = .valid) (same : (st.scanned.record i).id = (st.scanned.record j).id) : i = j := by
  obtain ⟨r, keptI, idI⟩ := Store.scanned_valid (.inl hi)
  obtain ⟨q, keptJ, idJ⟩ := Store.scanned_valid (.inl hj)
  exact Store.kept_unique keptI keptJ (Option.some.inj (idJ.symm.trans (same.symm.trans idI)))

theorem Store.scanned_clean {st : Store} {i : Fin 32} (clean : st.cell i = none) : (st.scanned.record i).state = .empty := by
  have notKept : st.kept i = none := by
    cases kept : st.kept i with
    | none => rfl
    | some r => simp [(Store.candidate_eq_some.1 (Store.kept_eq_some.1 kept).1).1] at clean
  rw [Store.scanned_record, notKept, clean]
  rfl

theorem Store.mem_scanMarks {st : Store} {i : Fin 32} :
    i ∈ st.scanMarks ↔ (st.cell i).isSome = true ∧ (st.scanned.record i).state ≠ .valid := by
  rw [Store.scanMarks, List.mem_filter, Ne, Store.scanned_valid_iff, and_iff_right (show i ∈ allSlots from List.mem_finRange i)]
  cases st.kept i <;> simp

/-! ### The version counter -/

/-- The versions of the complete slots. -/
theorem mem_scanVersions {st : Store} {n : Nat} :
    (n ∈ allSlots.filterMap fun i => (st.cell i).bind fun r => if r.complete then some r.version else none) ↔
      ∃ i r, st.cell i = some r ∧ r.complete = true ∧ r.version = n := by
  rw [List.mem_filterMap]
  refine ⟨fun ⟨i, _, found⟩ => ?_, fun ⟨i, r, cell, complete, version⟩ => ⟨i, List.mem_finRange i, ?_⟩⟩
  · obtain ⟨r, cell, chosen⟩ := Option.bind_eq_some_iff.1 found
    split at chosen
    · next complete => exact ⟨i, r, cell, complete, Option.some.inj chosen⟩
    · cases chosen
  · rw [cell, Option.bind_some, if_pos complete, version]

theorem Store.scanCounter_spec (st : Store) :
    st.counter.getD 0 ≤ st.scanCounter ∧
      (∀ (i : Fin 32) (r : NvRecord), st.cell i = some r → r.marker = true → r.checkGood = true → r.version ≤ st.scanCounter) ∧
      (st.scanCounter = st.counter.getD 0 ∨
        ∃ (i : Fin 32) (r : NvRecord), st.cell i = some r ∧ r.marker = true ∧ r.checkGood = true ∧ st.scanCounter = r.version) := by
  refine ⟨le_foldl_max _ _, fun i r cell marker good => ?_, ?_⟩
  · exact mem_le_foldl_max (mem_scanVersions.2 ⟨i, r, cell, NvRecord.complete_iff.2 ⟨marker, good⟩, rfl⟩) _
  · refine (foldl_max_mem _ _).imp_right fun among => ?_
    obtain ⟨i, r, cell, complete, version⟩ := mem_scanVersions.1 among
    obtain ⟨marker, good⟩ := NvRecord.complete_iff.1 complete
    exact ⟨i, r, cell, marker, good, version.symm⟩

/-! ### The scan's commands -/

/-- A scan with the slots `marks` left to erase: complete when there is none. -/
def State.scanLeft (s : State) (marks : List (Fin 32)) : State := if marks.isEmpty then s.scanComplete else s

theorem State.scanLeft_frame (s : State) (marks : List (Fin 32)) :
    s.scanLeft marks = { s with boot := (s.scanLeft marks).boot } := by
  unfold State.scanLeft
  split <;> rfl

theorem State.scanLeft_boot (s : State) (marks : List (Fin 32)) :
    (s.scanLeft marks).boot.scanMarks = s.boot.scanMarks ∧ (s.scanLeft marks).boot.scanReading = s.boot.scanReading ∧
      (marks = [] → (s.scanLeft marks).boot.phase = .listen ∧ (s.scanLeft marks).boot.listenTimer = some 20000) ∧
      (marks ≠ [] → (s.scanLeft marks).boot = s.boot) := by
  cases marks with
  | nil => exact ⟨rfl, rfl, fun _ => ⟨rfl, rfl⟩, fun some => absurd rfl some⟩
  | cons i rest => exact ⟨rfl, rfl, nofun, fun _ => rfl⟩

/-- Settles O17: the slots kept by the reading are those of highest rank, and an erase is `State.scanLeft` of the slots after it. -/
theorem scanSettlesTheSlots : Obligations.ScanSettlesTheSlots := by
  refine ⟨fun s scan reading => ?_, fun s i rest scan erasing marks => ?_⟩
  · let u : State :=
      { s with store := s.store.scanned, boot := { s.boot with scanReading := false, scanMarks := s.store.scanMarks } }
    have goes : exec .scanReadComplete s = .next (u.scanLeft s.store.scanMarks) :=
      congrArg Host.Outcome.next (if_pos ⟨scan, reading⟩)
    have store : (u.scanLeft s.store.scanMarks).store = s.store.scanned := by rw [State.scanLeft_frame]
    obtain ⟨kept, notReading, listens, scans⟩ := u.scanLeft_boot s.store.scanMarks
    have sameMarks : (u.scanLeft s.store.scanMarks).boot.scanMarks = s.store.scanMarks := kept
    refine ⟨_, goes, ?_, ?_, ?_, ?_, ?_, ?_, ?_, ?_, ?_, notReading, ?_⟩
    · rw [store]
      rfl
    · rw [store]
      exact fun i => Store.scanned_whole
    · rw [store]
      exact fun i j => Store.scanned_single
    · rw [store]
      intro i r cell marker good retired
      obtain ⟨j, q, keptJ, id, version, lower⟩ :=
        Store.kept_best (Store.candidate_eq_some.2 ⟨cell, NvRecord.complete_iff.2 ⟨marker, good⟩, retired⟩)
      exact ⟨j, q, (Store.candidate_eq_some.1 (Store.kept_eq_some.1 keptJ).1).1,
        Store.scanned_valid_iff.2 (Option.isSome_iff_exists.2 ⟨q, keptJ⟩), id, version, lower⟩
    · rw [store]
      exact fun i => Store.scanned_clean
    · rw [store, sameMarks]
      exact fun i => Store.mem_scanMarks
    · rw [store]
      exact ⟨s.store.scanCounter, rfl, s.store.scanCounter_spec⟩
    · rw [sameMarks]
      exact listens
    · rw [sameMarks]
      exact fun some => by rw [scans some]; exact scan
    · rw [store]
      exact State.scanLeft_frame u _
  · let u : State :=
      { s with store := (s.store.setCell i none).setRecord i SlotRecord.cleared, boot := { s.boot with scanMarks := rest } }
    have goes : exec .scanEraseComplete s = .next (u.scanLeft rest) := by
      refine congrArg Host.Outcome.next ((if_pos ⟨scan, erasing⟩).trans ?_)
      rw [marks]
      rfl
    have store : (u.scanLeft rest).store = (s.store.setCell i none).setRecord i SlotRecord.cleared := by rw [State.scanLeft_frame]
    obtain ⟨kept, -, listens, scans⟩ := u.scanLeft_boot rest
    refine ⟨_, goes, ?_, ?_, fun j other => ?_, kept, listens, fun some => by rw [scans some]; exact scan, ?_⟩
    · rw [store, Store.setRecord_cell, Store.setCell_cell, if_pos rfl]
    · rw [store, Store.setRecord_record, if_pos rfl]
    · rw [store, Store.setRecord_cell, Store.setCell_cell, Store.setRecord_record, if_neg other.symm, if_neg other.symm]
      exact ⟨rfl, rfl⟩
    · rw [store]
      exact State.scanLeft_frame u _

end Sys2Proof.Machine
end

section
/-! SUPPORT. The effect of a CLEAR: the events whose condition is gone, the track, HELD and INHIBITED (R40, R72, R87, R196, R202). -/

namespace Sys2Proof.Machine

/-! ### The events a CLEAR clears -/

/-- Clearing the flags of the events that pass a test. -/
theorem EventLatch.foldl_clear_getLsbD (test : Event → Bool) (l : List Event) (v : BitVec 18) (a : Event) :
    (l.foldl (fun v e => if test e then v &&& ~~~ e.bit else v) v).getLsbD (a.priority - 1) =
      (v.getLsbD (a.priority - 1) && !(l.any fun e => test e && decide (e = a))) := by
  induction l generalizing v with
  | nil => simp
  | cons e es ih =>
    have bit : (v &&& ~~~ e.bit).getLsbD (a.priority - 1) = (v.getLsbD (a.priority - 1) && !decide (e = a)) := by
      have atMost := a.priority_bounds
      have same : e.bit.getLsbD (a.priority - 1) = decide (e = a) := by
        have one := EventLatch.has_set ⟨0, 0, 0, .powerOn⟩ e a
        simpa [EventLatch.has, EventLatch.set, eq_comm] using one
      rw [BitVec.getLsbD_and, BitVec.getLsbD_not, same, decide_eq_true (by omega : a.priority - 1 < 18), Bool.true_and]
    rw [List.foldl_cons, ih, List.any_cons]
    by_cases tested : test e = true
    · rw [if_pos tested, bit, tested, Bool.true_and, Bool.not_or, Bool.and_assoc]
    · rw [if_neg tested, Bool.eq_false_of_not_eq_true tested, Bool.false_and, Bool.false_or]

theorem EventLatch.clearWhere_has (l : EventLatch) (gone : Event → Bool) (a : Event) :
    (l.clearWhere gone).has a = (l.has a && !gone a) := by
  have among : (Event.all.any fun e => (l.has e && gone e) && decide (e = a)) = (l.has a && gone a) := by
    rw [Bool.eq_iff_iff, List.any_eq_true]
    constructor
    · rintro ⟨e, -, tested⟩
      obtain ⟨passes, same⟩ := Bool.and_eq_true_iff.1 tested
      exact of_decide_eq_true same ▸ passes
    · exact fun passes => ⟨a, List.mem_of_getElem? a.all_getElem, by rw [passes, decide_eq_true rfl, Bool.and_self]⟩
  have folded := EventLatch.foldl_clear_getLsbD (fun e => l.has e && gone e) Event.all l.latched a
  rw [among] at folded
  rw [EventLatch.has, EventLatch.clearWhere, folded, ← EventLatch.has]
  cases l.has a <;> rfl

theorem EventLatch.anyHalt_eq_false_iff (l : EventLatch) : l.anyHalt = false ↔ ∀ e : Event, e.isHalt = true → l.has e = false := by
  rw [← Bool.not_eq_true, EventLatch.anyHalt_iff, not_exists]
  exact forall_congr' fun e => by rw [not_and, Bool.not_eq_true]

/-! ### The panels of the list -/

theorem Feature.panel?_of_isPanel {f : Feature} {n : Nat} (is : f.isPanel n = true) : ∃ p, f.body = .panel p ∧ p.number = n := by
  unfold Feature.isPanel at is
  split at is
  · next p body => exact ⟨p, body, of_decide_eq_true is⟩
  · cases is

theorem State.panel?_eq_some {s : State} {n : Nat} {p : Panel} (found : s.panel? n = some p) :
    ∃ f ∈ s.map.features, f.body = .panel p ∧ p.number = n := by
  obtain ⟨f, first, panel⟩ := Option.bind_eq_some_iff.1 found
  obtain ⟨q, body, number⟩ := Feature.panel?_of_isPanel (List.find?_some (p := fun f : Feature => f.isPanel n) first)
  have same : some q = some p := by rw [← panel, Feature.panel?, body]
  exact ⟨f, List.mem_of_find?_eq_some first, Option.some.inj same ▸ body, Option.some.inj same ▸ number⟩

theorem State.panel?_isSome {s : State} {n : Nat} : (s.panel? n).isSome = true ↔ n ∈ panelNumbers s.map.features := by
  rw [mem_panelNumbers]
  refine ⟨fun held => ?_, fun ⟨f, mem, is⟩ => ?_⟩
  · obtain ⟨p, found⟩ := Option.isSome_iff_exists.1 held
    obtain ⟨f, mem, body, number⟩ := State.panel?_eq_some found
    exact ⟨f, mem, by rw [Feature.isPanel, body]; exact decide_eq_true number⟩
  · obtain ⟨g, first⟩ := Option.isSome_iff_exists.1 (List.find?_isSome (p := fun f : Feature => f.isPanel n).2 ⟨f, mem, is⟩)
    obtain ⟨p, body, -⟩ := Feature.panel?_of_isPanel (List.find?_some (p := fun f : Feature => f.isPanel n) first)
    rw [State.panel?, first, Option.bind_some, Feature.panel?, body]
    rfl

/-! ### The clearing of TRACK_LOST (R72, R87, R93) -/

theorem Panel.withCause_eq (p : Panel) (c : RejectCause) : p.withCause c = { p with cause := some (p.cause.getD c) } := by
  unfold Panel.withCause
  cases cause : p.cause with
  | none => rfl
  | some first => exact (congrArg (fun q => { p with cause := q }) cause.symm).symm

theorem State.planAfter_stays {s : State} {c : CreatedPanel} {n : Nat} {k : RejectCause} (last : s.plan.lastCreated = some c)
    (stays : s.cfg.origin = false ∨ c.cause ≠ none) : s.planAfter n k = s.plan := by
  unfold State.planAfter
  rw [last]
  refine if_neg fun ⟨origin, _, fresh⟩ => ?_
  rcases stays with away | caused
  · exact absurd origin (by simp [away])
  · exact caused fresh

theorem State.planAfter_condemns {s : State} {c : CreatedPanel} {k : RejectCause} (last : s.plan.lastCreated = some c)
    (origin : s.cfg.origin = true) (fresh : c.cause = none) :
    s.planAfter c.number k = { s.plan with lastCreated := some { c with cause := some k } } := by
  unfold State.planAfter
  rw [last]
  exact if_pos ⟨origin, rfl, fresh⟩

theorem State.clearTrack_frame (s : State) :
    s.clearTrack = { s with tracker := s.clearTrack.tracker, plan := s.clearTrack.plan, map := s.clearTrack.map } := rfl

theorem State.clearTrack_features (s : State) :
    s.clearTrack.map.features =
      s.map.features.map fun f =>
        match f.body with
        | .panel p => { f with body := .panel { p with cause := some (p.cause.getD .trackLost) } }
        | .splice n a => { f with body := .splice n a } := by
  refine List.map_congr_left fun f _ => ?_
  obtain ⟨body, entry, overdue, reached⟩ := f
  cases body with
  | panel p => exact congrArg (fun q => Feature.mk (.panel q) entry overdue reached) (p.withCause_eq .trackLost)
  | splice n a => rfl

theorem State.clearTrack_plan (s : State) :
    (∀ c, s.plan.lastCreated = some c →
        (s.cfg.origin = true → c.cause = none → c.number ∈ panelNumbers s.map.features →
          s.clearTrack.plan = { s.plan with lastCreated := some { c with cause := some .trackLost } }) ∧
        (s.cfg.origin = false ∨ c.cause ≠ none ∨ c.number ∉ panelNumbers s.map.features → s.clearTrack.plan = s.plan)) ∧
      (s.plan.lastCreated = none → s.clearTrack.plan = s.plan) := by
  refine ⟨fun c last => ?_, fun noneCreated => ?_⟩
  · have plan : s.clearTrack.plan = if (s.panel? c.number).isSome = true then s.planAfter c.number .trackLost else s.plan := by
      simp only [State.clearTrack, last]
    rw [plan]
    refine ⟨fun origin fresh listed => ?_, fun stays => ?_⟩
    · rw [if_pos (State.panel?_isSome.2 listed), State.planAfter_condemns last origin fresh]
    · split
      · next listed =>
        have stays : s.cfg.origin = false ∨ c.cause ≠ none :=
          stays.imp_right fun or => or.resolve_right (not_not_intro (State.panel?_isSome.1 listed))
        exact State.planAfter_stays last stays
      · rfl
  · simp only [State.clearTrack, noneCreated]

/-! ### HELD and INHIBITED (R40, R196) -/

/-- HELD left for STANDBY when no halt-class event is latched (R40). -/
def State.leaveHeld (s : State) : State := if s.line.state = .held ∧ s.events.anyHalt = false then s.enterLine .standby else s

theorem State.leaveHeld_rests {s : State} (held : s.line.state = .held) (clear : s.events.anyHalt = false) :
    s.leaveHeld = s.resting .standby := by
  rw [State.leaveHeld, if_pos ⟨held, clear⟩, State.enterLine_resting s (st := .standby) (by decide), if_neg (by decide)]

theorem State.leaveHeld_stays {s : State} (stays : ¬ (s.line.state = .held ∧ s.events.anyHalt = false)) : s.leaveHeld = s :=
  if_neg stays

theorem State.leaveHeld_frame (s : State) :
    s.leaveHeld =
      { s with line := s.leaveHeld.line, steam := s.leaveHeld.steam, splice := s.leaveHeld.splice, step1 := s.leaveHeld.step1 } := by
  by_cases leaves : s.line.state = .held ∧ s.events.anyHalt = false
  · rw [State.leaveHeld_rests leaves.1 leaves.2, State.resting_frame]
  · rw [State.leaveHeld_stays leaves]

/-- HELD is left out of MATCHING alone with a change of the splice. -/
theorem State.leaveHeld_splice {s : State} (notMatching : s.splice.state ≠ .matching) :
    s.leaveHeld.splice = s.splice ∧ s.leaveHeld.step1 = s.step1 := by
  by_cases leaves : s.line.state = .held ∧ s.events.anyHalt = false
  · rw [State.leaveHeld_rests leaves.1 leaves.2, State.resting_of_notMatching notMatching]
    exact ⟨rfl, rfl⟩
  · rw [State.leaveHeld_stays leaves]
    exact ⟨rfl, rfl⟩

theorem State.leaveHeld_run (s : State) : s.leaveHeld.line.state = .run ↔ s.line.state = .run := by
  by_cases leaves : s.line.state = .held ∧ s.events.anyHalt = false
  · rw [State.leaveHeld_rests leaves.1 leaves.2, State.resting_frame, leaves.1]
    exact iff_of_false nofun nofun
  · rw [State.leaveHeld_stays leaves]

theorem State.freeSplice_stays {s : State} (free : s.splice.state ≠ .inhibited) : s.freeSplice = s := by
  unfold State.freeSplice
  split
  · next inhibited => exact absurd inhibited free
  all_goals rfl

theorem State.freeSplice_frame (s : State) : s.freeSplice = { s with splice := s.freeSplice.splice, step1 := s.freeSplice.step1 } := by
  by_cases inhibited : s.splice.state = .inhibited
  · rw [State.freeSplice, inhibited]
    exact State.tryMatching_frame _
  · rw [State.freeSplice_stays inhibited]

theorem Splice.incomingLoaded_armed {u : Splice} (inhibited : u.state = .inhibited) :
    Splice.incomingLoaded { u with state := .armed } = u.incomingLoaded := by
  have incoming : Splice.incoming { u with state := .armed } = u.incoming := by
    simp only [Splice.incoming, inhibited]
    rfl
  rw [Splice.incomingLoaded, incoming]
  rfl

theorem State.freeSplice_inhibited {s : State} (inhibited : s.splice.state = .inhibited) :
    s.freeSplice.splice.state = if s.splice.incomingLoaded = true ∧ s.line.state = .run then .matching else .armed := by
  let armed : State := { s with splice := { s.splice with state := .armed } }
  have goes : s.freeSplice = armed.tryMatching := by rw [State.freeSplice, inhibited]
  have loaded : armed.splice.incomingLoaded = s.splice.incomingLoaded := Splice.incomingLoaded_armed inhibited
  rw [goes, ← loaded]
  split
  · next begins => exact (State.tryMatching_matches (s := armed) rfl begins.1 begins.2).1
  · next stays => rw [State.tryMatching_stays (s := armed) fun ⟨_, begins⟩ => stays begins]

/-! ### A CLEAR at its owner -/

/-- A CLEAR after its events: the track, when TRACK_LOST was latched. -/
def State.trackCleared (s : State) (lost : Bool) : State := if lost then s.clearTrack else s

theorem State.trackCleared_frame (s : State) (lost : Bool) :
    s.trackCleared lost =
      { s with tracker := (s.trackCleared lost).tracker, plan := (s.trackCleared lost).plan, map := (s.trackCleared lost).map } := by
  cases lost <;> rfl

theorem State.takeClear_eq (s : State) :
    s.takeClear =
      (State.leaveHeld
        (State.trackCleared { s with events := s.events.clearWhere s.conditionGone } (s.events.has .trackLost))).freeSplice := rfl

/-- Settles O21: the events by `EventLatch.clearWhere_has`, the rest by the three moves of `State.takeClear_eq`. -/
theorem clearClearsWhatIsGone : Obligations.ClearClearsWhatIsGone := by
  intro s bytes sender targets heard
  have taken : exec (.clear bytes) s = .next s.heard.takeClear := exec_takes heard
  let a : State := { s.heard with events := s.events.clearWhere s.conditionGone }
  let b : State := a.trackCleared (s.events.has .trackLost)
  have goes : s.heard.takeClear = b.leaveHeld.freeSplice := State.takeClear_eq s.heard
  have bFrame : b = { a with tracker := b.tracker, plan := b.plan, map := b.map } := a.trackCleared_frame _
  have bSplice : b.splice = s.splice ∧ b.step1 = s.step1 := by rw [bFrame]; exact ⟨rfl, rfl⟩
  have bLine : b.line = s.line ∧ b.steam = s.steam := by rw [bFrame]; exact ⟨rfl, rfl⟩
  have bEvents : b.events = s.events.clearWhere s.conditionGone := by rw [bFrame]
  have frame : b.leaveHeld.freeSplice =
      { b with line := b.leaveHeld.line, steam := b.leaveHeld.steam
               splice := b.leaveHeld.freeSplice.splice, step1 := b.leaveHeld.freeSplice.step1 } :=
    b.leaveHeld.freeSplice_frame.trans (congrArg (fun u : State => { u with
      splice := b.leaveHeld.freeSplice.splice, step1 := b.leaveHeld.freeSplice.step1 }) b.leaveHeld_frame)
  generalize final : b.leaveHeld.freeSplice = t at frame goes
  have tEvents : t.events = s.events.clearWhere s.conditionGone := by rw [frame]; exact bEvents
  have tLine : t.line = b.leaveHeld.line ∧ t.steam = b.leaveHeld.steam := by rw [frame]; exact ⟨rfl, rfl⟩
  have tTrack : t.tracker = b.tracker ∧ t.map = b.map ∧ t.plan = b.plan := by rw [frame]; exact ⟨rfl, rfl, rfl⟩
  have noHalt : b.events.anyHalt = false ↔ ∀ e : Event, e.isHalt = true → t.events.has e = false := by
    rw [EventLatch.anyHalt_eq_false_iff, bEvents, tEvents]
  refine ⟨t, taken.trans (congrArg _ goes), fun e => ?_, ?_, ?_, ?_, fun held clear => ?_, fun stays => ?_, fun lost => ?_,
    fun kept => ?_, fun inhibited => ?_, fun notInhibited notMatching => ?_, ?_⟩
  · rw [tEvents, EventLatch.clearWhere_has]
    congr 1
    cases e with
    | mapFull => simp [State.conditionGone, ← decide_not]
    | _ => simp [State.conditionGone, State.anyOverdue]
  · rw [tEvents]; rfl
  · rw [tEvents]; rfl
  · rw [tEvents]; rfl
  · rw [tLine.1, State.leaveHeld_rests (by rw [bLine.1]; exact held) (noHalt.2 clear), State.resting_frame, bLine.1]
  · have notLeft : ¬ (b.line.state = .held ∧ b.events.anyHalt = false) := by
      rw [bLine.1, noHalt]
      rintro ⟨held, clear⟩
      rcases stays with notHeld | ⟨e, halt, has⟩
      · exact notHeld held
      · exact absurd has (by simp [clear e halt])
    rw [tLine.1, tLine.2, State.leaveHeld_stays notLeft]
    exact bLine
  · have isClearTrack : b = a.clearTrack := by simp only [b, State.trackCleared, lost, if_true]
    obtain ⟨created, notCreated⟩ := a.clearTrack_plan
    rw [tTrack.1, tTrack.2.1, tTrack.2.2, isClearTrack]
    exact ⟨rfl, congrArg (fun fs => { s.map with features := fs }) a.clearTrack_features, created, notCreated⟩
  · have isKept : b = a := by simp only [b, State.trackCleared, kept]; rfl
    rw [tTrack.1, tTrack.2.1, tTrack.2.2, isKept]
    exact ⟨rfl, rfl, rfl⟩
  · have notMatching : b.splice.state ≠ .matching := by rw [bSplice.1, inhibited]; nofun
    obtain ⟨splice, -⟩ := State.leaveHeld_splice notMatching
    rw [← final, State.freeSplice_inhibited (by rw [splice, bSplice.1]; exact inhibited), splice, bSplice.1]
    simp only [b.leaveHeld_run, bLine.1]
  · obtain ⟨splice, step1⟩ := State.leaveHeld_splice (s := b) (by rw [bSplice.1]; exact notMatching)
    rw [← final, State.freeSplice_stays (by rw [splice, bSplice.1]; exact notInhibited), splice, step1]
    exact bSplice
  · rw [frame, bFrame]

end Sys2Proof.Machine
end

section
/-! SUPPORT. The Peer Table: a BEACON, the age timer and a RELEASE, with what follows them (R32 to R34, R46, R81, R82). -/

namespace Sys2Proof.Machine

/-! ### What the members decide -/

theorem State.nearestFresh_congr {s u : State} (boot : u.boot = s.boot) (peers : u.line.peers = s.line.peers) :
    u.nearestFresh = s.nearestFresh := by
  have fresh : u.line.isFresh = s.line.isFresh := by
    funext i
    simp only [LineControl.isFresh, LineControl.peer_congr peers]
  rw [State.nearestFresh, State.nearestFresh, fresh, boot]

theorem State.isLast_iff (s : State) :
    s.isLast = true ↔ ∀ i : BitVec 4, s.boot.index < i → (s.line.peer i).member = true → (s.line.peer i).state = .released := by
  simp only [State.isLast, Bool.not_eq_true', List.any_eq_false, mem_allIndices, true_implies, Bool.and_eq_true, decide_eq_true_eq,
    LineControl.standing]
  grind

/-- An entry that stands after as before leaves the last station as it was. -/
theorem State.isLast_setPeer {s : State} {i : BitVec 4} {p : Peer} (member : p.member = (s.line.peer i).member)
    (stands : p.state = .released ↔ (s.line.peer i).state = .released) :
    State.isLast { s with line := s.line.setPeer i p } = s.isLast := by
  rw [Bool.eq_iff_iff, State.isLast_iff, State.isLast_iff]
  refine forall_congr' fun j => ?_
  dsimp only
  rw [LineControl.setPeer_peer]
  split
  · next same => rw [← same, member, stands]
  · rfl

theorem State.lastFollowed.congr {s t u : State} (h : s.lastFollowed t) (isLast : u.isLast = t.isLast) (map : u.map = t.map) :
    s.lastFollowed u := by
  simpa only [State.lastFollowed, isLast, map] using h

/-! ### The frames of the operations -/

theorem State.retakeQIn_peers (s : State) : s.retakeQIn.line.peers = s.line.peers := by rw [State.retakeQIn_eq]

theorem State.afterSpeeds_line (old s : State) :
    (State.afterSpeeds old s).line = { s.line with driveTimer := (State.afterSpeeds old s).line.driveTimer } := by
  unfold State.afterSpeeds State.superviseDrive State.superviseMatch
  split <;> simp

theorem State.afterSpeeds_frame (old s : State) :
    State.afterSpeeds old s =
      { s with
        line := (State.afterSpeeds old s).line
        splice := (State.afterSpeeds old s).splice
        step0 := (State.afterSpeeds old s).step0
        step1 := (State.afterSpeeds old s).step1 } := by
  obtain ⟨pending, boot, cfg, link, events, -, -, -, -, -, -, -, tracker, map, plan, store, seq, steam, dose, -, -, -, -, -, -, -, -, -,
    free⟩ := State.afterSpeeds_same s old
  rw [← pending, ← boot, ← cfg, ← link, ← events, ← tracker, ← map, ← plan, ← store, ← seq, ← steam, ← dose, ← free]

theorem State.relast_frame (s : State) (wasLast : Bool) : State.relast wasLast s = { s with map := (State.relast wasLast s).map } := by
  unfold State.relast
  (repeat' split) <;> rfl

/-! ### BEACON (R32) -/

theorem State.takeBeacon_member {s : State} {sender : BitVec 4} (member : (s.line.peer sender).member = true) (ceiling qOut : Nat) :
    s.takeBeacon sender ceiling qOut =
      State.afterSpeeds s
        (State.relast s.isLast
          { s with
            line :=
              s.line.setPeer sender
                { member := true, state := .fresh, ageTimer := some 20000, ceiling := some ceiling, qOut := some qOut } }).retakeQIn :=
  if_pos member

theorem State.takeBeacon_other {s : State} {sender : BitVec 4} (other : (s.line.peer sender).member = false) (ceiling qOut : Nat) :
    s.takeBeacon sender ceiling qOut = s :=
  if_neg (by simp [other])

/-! ### The age timer (R33) -/

/-- The state with a silent member's entry STALE. -/
def State.silenced (s : State) (i : BitVec 4) : State :=
  { s with line := s.line.setPeer i { s.line.peer i with state := .stale, ageTimer := none } }

theorem State.silenced_sameBlade {s : State} {i : BitVec 4} (fresh : (s.line.peer i).state = .fresh) : s.sameBlade (s.silenced i) where
  boot := rfl
  cfg := rfl
  isLast := State.isLast_setPeer rfl (by rw [fresh]; exact ⟨nofun, nofun⟩)
  fifo := rfl
  map := rfl
  plan := rfl
  seq := rfl

/-- PEER_LOST in RUN and STOPPING. -/
def State.lose (s : State) : State :=
  match s.line.state with
  | .run | .stopping => s.latch .peerLost
  | .starting | .standby | .halting | .held => s

theorem State.lose_running {s : State} (running : s.line.state = .run ∨ s.line.state = .stopping) : s.lose = s.latch .peerLost := by
  unfold State.lose
  rcases running with state | state <;> rw [state]

theorem State.lose_quiet {s : State} (notRun : s.line.state ≠ .run) (notStopping : s.line.state ≠ .stopping) : s.lose = s := by
  unfold State.lose
  split <;> simp_all

theorem State.lose_cases (s : State) : s.lose = s ∨ s.lose = s.latch .peerLost := by
  unfold State.lose
  split <;> simp

theorem exec_peerAgeTimerExpiry {s : State} {i : BitVec 4} (fresh : (s.line.peer i).state = .fresh)
    (runs : (s.line.peer i).ageTimer ≠ none) :
    exec (.peerAgeTimerExpiry i) s = .next (State.afterSpeeds s (s.silenced i).lose.retakeQIn) :=
  congrArg Host.Outcome.next (if_pos ⟨fresh, runs⟩)

/-! ### RELEASE (R34) -/

theorem State.takeRelease_outOfRange {s : State} {released : Byte}
    (outside : released = 0 ∨ 15 < released.toNat ∨ (s.line.peer (released.setWidth 4)).member = false) :
    s.takeRelease released = s.refuse .release .outOfRange :=
  if_pos (outside.imp_left fun zero => by rw [zero]; rfl)

theorem State.takeRelease_member {s : State} {i : BitVec 4} (notZero : i ≠ 0) (member : (s.line.peer i).member = true) :
    s.takeRelease (i.setWidth 8) =
      if i = s.boot.index ∨ (s.line.peer i).state = .fresh then s.refuse .release .badState
      else State.relast s.isLast { s with line := s.line.setPeer i { s.line.peer i with state := .released } } := by
  have back : (i.setWidth 8).setWidth 4 = i := by bv_omega
  have inside : ¬ ((i.setWidth 8).toNat = 0 ∨ 15 < (i.setWidth 8).toNat ∨ (s.line.peer i).member = false) := by
    have : i.toNat ≠ 0 := fun zero => notZero (BitVec.eq_of_toNat_eq zero)
    have := i.isLt
    simp only [member, BitVec.toNat_setWidth, Bool.true_eq_false, or_false]
    omega
  simp only [State.takeRelease, back, if_neg inside]
  by_cases own : i = s.boot.index
  · simp only [own, if_true, true_or]
  · simp only [own, if_false, false_or]
    cases state : (s.line.peer i).state <;> simp

/-- Settles O22: each command is `State.afterSpeeds` or `State.relast` of a state with one entry of the table replaced. -/
theorem peersAreHeardSilentAndReleased : Obligations.PeersAreHeardSilentAndReleased := by
  refine ⟨fun s bytes sender ls ceiling v q le n rk rc bb heard => ?_, fun s i fresh runs => ?_,
    fun s bytes sender targets released heard => ?_⟩
  · have taken : exec (.beacon bytes) s = .next (s.heard.takeBeacon sender ceiling.toNat q.toNat) := exec_takes heard
    refine ⟨fun other => taken.trans (congrArg _ (State.takeBeacon_other (s := s.heard) other _ _)), fun member => ?_⟩
    rw [State.takeBeacon_member (s := s.heard) member] at taken
    let entry : Peer := { member := true, state := .fresh, ageTimer := some 20000, ceiling := some ceiling.toNat, qOut := some q.toNat }
    let u : State := { s.heard with line := s.line.setPeer sender entry }
    let l := State.relast s.isLast u
    let w := l.retakeQIn
    let t := State.afterSpeeds s.heard w
    have lFrame : l = { u with map := l.map } := u.relast_frame _
    have wFrame : w = { u with map := l.map, line := { u.line with qIn := w.line.qIn } } :=
      l.retakeQIn_eq.trans (congrArg (fun v : State => { v with line := { v.line with qIn := w.line.qIn } }) lFrame)
    have tFrame : t = { w with line := { w.line with driveTimer := t.line.driveTimer }, splice := t.splice, step0 := t.step0, step1 := t.step1 } :=
      (State.afterSpeeds_frame s.heard w).trans
        (congrArg (fun line => { w with line := line, splice := t.splice, step0 := t.step0, step1 := t.step1 }) (State.afterSpeeds_line s.heard w))
    have peers : t.line.peers = u.line.peers := by rw [tFrame, wFrame]
    have peer (i : BitVec 4) : t.line.peer i = if sender = i then entry else s.line.peer i :=
      (LineControl.peer_congr peers i).trans (LineControl.setPeer_peer ..)
    have line : l.line = u.line ∧ l.boot = s.boot ∧ l.cfg = s.cfg := by rw [lFrame]; exact ⟨rfl, rfl, rfl⟩
    have qIn : t.line.qIn = w.line.qIn := by rw [tFrame]
    have last : s.lastFollowed l := State.relast_lastFollowed s u rfl rfl
    refine ⟨t, taken, by rw [peer, if_pos rfl], fun i other => by rw [peer, if_neg other.symm], fun done notOrigin nearest => ?_,
      fun kept => ?_, ?_, ?_, ?_, ?_, ?_, ?_⟩
    · rw [qIn]
      refine State.retakeQIn_takes (line.2.1 ▸ done) (line.2.2 ▸ notOrigin) (i := sender) ?_ ?_
      · rw [← nearest]
        exact (State.nearestFresh_congr (by rw [tFrame, wFrame, line.2.1]; rfl) (by rw [peers, line.1])).symm
      · rw [line.1, LineControl.setPeer_peer, if_pos rfl]
    · rw [qIn, State.retakeQIn_held (s := l) (by rw [line.2.1, line.2.2]; exact kept.imp_right .inl), line.1]
      rfl
    · rw [tFrame, wFrame]; rfl
    · rw [tFrame, wFrame]; rfl
    · rw [tFrame, wFrame]; rfl
    · exact State.afterSpeeds_speedsFollowed (s := s.heard) (congrArg State.cfg wFrame :) (congrArg State.step0 wFrame :)
        (congrArg (fun v : State => v.line.driveTimer) wFrame :) fun _ => (congrArg (fun v : State => v.splice.matchTimer) wFrame :)
    · refine last.congr (State.afterSpeeds_isLast.trans (State.isLast_congr ?_ ?_)) ?_
      · rw [wFrame, line.2.1]; rfl
      · rw [wFrame, line.1]
      · rw [tFrame, wFrame]
    · rw [tFrame, wFrame]
  · let v := (s.silenced i).lose
    let t := State.afterSpeeds s v.retakeQIn
    have same : s.sameBlade (s.silenced i) := State.silenced_sameBlade fresh
    have vCases : v = s.silenced i ∨ v = (s.silenced i).latch .peerLost := State.lose_cases _
    have vSame : v.boot = s.boot ∧ v.cfg = s.cfg ∧ v.line.peers = (s.silenced i).line.peers ∧ v.line.qIn = s.line.qIn ∧
        v.line.vCmd = s.line.vCmd ∧ v.line.setpoint = s.line.setpoint ∧ v.line.driveTimer = s.line.driveTimer ∧ v.step0 = s.step0 ∧
        v.store = s.store ∧ v.dose = s.dose ∧ v.splice.rollA = s.splice.rollA ∧ v.splice.rollB = s.splice.rollB := by
      rcases vCases with quiet | lost
      · rw [quiet]
        exact ⟨rfl, rfl, rfl, rfl, rfl, rfl, rfl, rfl, rfl, rfl, rfl, rfl⟩
      · simp [lost, State.silenced, LineControl.setPeer]
    obtain ⟨boot, cfg, peers, qIn, vCmd, setpoint, drive, step0, store, dose, rollA, rollB⟩ := vSame
    have peer (j : BitVec 4) : v.line.peer j = if i = j then { s.line.peer i with state := .stale, ageTimer := none } else s.line.peer j :=
      (LineControl.peer_congr peers j).trans (LineControl.setPeer_peer ..)
    have tPeers : t.line.peers = v.line.peers := by simp [t]
    have tQIn : t.line.qIn = v.retakeQIn.line.qIn := by simp [t]
    have nearest : t.nearestFresh = v.nearestFresh := State.nearestFresh_congr (by simp [t]) tPeers
    have rule : s.heldRule v := by
      rcases vCases with quiet | lost
      · exact quiet.symm ▸ State.heldRule_of_same same id
      · exact lost.symm ▸ same.heldRule rfl State.latch_heldRule
    have splice : v.splice = s.splice ∨ v.splice.state = .armed := by
      rcases vCases with quiet | lost
      · exact .inl (by rw [quiet]; rfl)
      · exact lost.symm ▸ (s.silenced i).latch_splice .peerLost
    refine ⟨t, exec_peerAgeTimerExpiry fresh runs, ?_, fun j other => ?_, fun running => ?_, fun notRun notStopping => ?_, fun kept => ?_,
      fun done notOrigin j w near qOut => ?_, ?_, ?_, by simp [t, vCmd], by simp [t, setpoint], by simp [t, store], by simp [t, dose],
      by simp [t, rollA], by simp [t, rollB]⟩
    · rw [LineControl.peer_congr tPeers, peer, if_pos rfl]
    · rw [LineControl.peer_congr tPeers, peer, if_neg other.symm]
    · have lost : v = (s.silenced i).latch .peerLost := State.lose_running running
      obtain ⟨state, -⟩ := (latch_haltsTheLine (s.silenced i) (e := .peerLost) rfl).1 running
      refine ⟨?_, ?_⟩
      · simp only [t, State.afterSpeeds_same, State.retakeQIn_same, lost, State.latch_has]
      · simp only [t, State.afterSpeeds_same, State.retakeQIn_same, lost, state]
        rfl
    · have quiet : v = s.silenced i := State.lose_quiet notRun notStopping
      simp [t, quiet, State.silenced, LineControl.setPeer]
    · rw [tQIn, State.retakeQIn_held (by rw [boot, cfg, ← nearest]; exact kept), qIn]
    · refine tQIn.trans (State.retakeQIn_takes (boot ▸ done) (cfg ▸ notOrigin) (nearest ▸ near) ?_)
      rw [peer]
      split
      · next same => exact same ▸ qOut
      · exact qOut
    · exact rule.congr (by simp [t]) (by simp [t]) (by simp [t]) (by simp [t]) (by simp [t]) (by simp [t])
    · refine State.afterSpeeds_speedsFollowed (by simp [cfg]) (by simp [step0]) (by simp [drive]) fun matching => ?_
      rcases splice with same | armed
      · simp [same]
      · simp [armed] at matching
  · have taken : exec (.release bytes) s = .next (s.heard.takeRelease released) := exec_takes heard
    refine ⟨fun outside => taken.trans (congrArg _ (State.takeRelease_outOfRange (s := s.heard) outside)),
      fun i same notZero member => ?_, s.isLast_iff⟩
    rw [same, State.takeRelease_member (s := s.heard) notZero member] at taken
    refine ⟨fun refused => taken.trans (congrArg _ (if_pos refused)), fun notOwn notFresh => ?_⟩
    replace taken := taken.trans (congrArg _ (if_neg (not_or.2 ⟨notOwn, notFresh⟩)))
    let u : State := { s.heard with line := s.line.setPeer i { s.line.peer i with state := .released } }
    let t := State.relast s.isLast u
    have frame : t = { u with map := t.map } := u.relast_frame _
    have peer (j : BitVec 4) : t.line.peer j = if i = j then { s.line.peer i with state := .released } else s.line.peer j := by
      rw [frame]
      exact LineControl.setPeer_peer ..
    refine ⟨t, taken, by rw [peer, if_pos rfl], fun j other => by rw [peer, if_neg other.symm], State.relast_lastFollowed s u rfl rfl, ?_⟩
    rw [frame]
    rfl

end Sys2Proof.Machine
end

section
/-! SUPPORT. The Line Link: contention and slots, the bits on the line, the frames sent and aborted, the beacon (R1 to R6, R13 to R16, R47,
R80, R167, R201). -/

namespace Sys2Proof.Machine

/-! ### Slots (R2, R3) -/

section
variable {s : State} {n slot : Nat}

/-- What a slot of the open period does: the ready frame of its class starts in the own slot, the next slot is awaited in any other. -/
theorem exec_slotOpening (contention : s.link.line = .contention n) (inOrder : n ≤ slot) (inside : slot < 64) :
    exec (.slotOpening slot) s =
      .next
        (match (if slot % 16 = s.boot.index.toNat ∧ s.boot.index ≠ 0 then s.link.readyOf (slot / 16) else none) with
        | some (p, f) => { s with link := s.link.start p f }
        | none => { s with link := { s.link with line := .contention (slot + 1) } }) := by
  show execSlotOpening slot s = _
  rw [execSlotOpening, contention]
  exact congrArg _ (if_pos ⟨inOrder, inside⟩)

theorem exec_slotOpening_foreign (contention : s.link.line = .contention n) (inOrder : n ≤ slot) (inside : slot < 64)
    (foreign : slot % 16 ≠ s.boot.index.toNat ∨ s.boot.index = 0) :
    exec (.slotOpening slot) s = .next { s with link := { s.link with line := .contention (slot + 1) } } := by
  rw [exec_slotOpening contention inOrder inside, if_neg fun ⟨own, strapped⟩ => foreign.elim (absurd own) (absurd · strapped)]

/-- The own slot of class `cls`. -/
theorem exec_slotOpening_own (contention : s.link.line = .contention n) (inOrder : n ≤ slot) (inside : slot < 64)
    (strapped : s.boot.index ≠ 0) {cls : Nat} (own : slot = 16 * cls + s.boot.index.toNat) :
    (s.link.readyOf cls = none →
        exec (.slotOpening slot) s = .next { s with link := { s.link with line := .contention (slot + 1) } }) ∧
      (∀ p f, s.link.readyOf cls = some (p, f) → exec (.slotOpening slot) s = .next { s with link := s.link.start p f }) := by
  have below := s.boot.index.isLt
  have isOwn : slot % 16 = s.boot.index.toNat := by omega
  have isClass : slot / 16 = cls := by omega
  rw [exec_slotOpening contention inOrder inside, if_pos ⟨isOwn, strapped⟩, isClass]
  exact ⟨fun idle => by rw [idle], fun p f ready => by rw [ready]⟩

end

/-! ### Bits on the line (R1) -/

theorem readData_byteBits (b : Byte) : readData ((byteBits b).map dataBit) = b := by
  revert b
  decide +kernel

theorem readLine_lineFrame (bytes : List Byte) : readLine (lineFrame bytes) = some bytes := by
  induction bytes with
  | nil => rfl
  | cons b rest ih =>
    have byte : readLine (lineFrame (b :: rest)) =
        (readLine (lineFrame rest)).map fun bytes => readData ((byteBits b).map dataBit) :: bytes := rfl
    rw [byte, ih, readData_byteBits]
    rfl

theorem lineByte_data {b : Byte} {i : Nat} (data : i < 8) :
    (lineByte b)[8 - i]? = some (if b.getLsbD i then .recessive else .dominant) := by
  interval_cases i <;> rfl

/-- Settles O7: the four classes of the own slot by `exec_slotOpening_own`. -/
theorem slotsAndContentionMoveTheLine : Obligations.SlotsAndContentionMoveTheLine := by
  refine ⟨fun s => ⟨fun awake waits => ?_, fun n contention => ⟨?_, ?_⟩, fun receiving => ?_⟩,
    fun s n slot contention inOrder inside => ?_, fun b rest => ⟨rfl, rfl, rfl, rfl, rfl, fun i data => lineByte_data data⟩,
    readLine_lineFrame, fun x y => ?_⟩
  · show execEndOfGap s = _
    rcases waits with line | line <;> rw [execEndOfGap, if_pos awake, line]
  · show execContentionPeriodTimeout s = _
    rw [execContentionPeriodTimeout, contention]
  · show execFirstActivity s = _
    rw [execFirstActivity, contention]
  · show execReceiveAbort s = _
    rw [execReceiveAbort, receiving]
  · have silent : s.driven = [] := by rw [State.driven, Link.onLine, contention]
    have own (cls : Nat) (strapped : s.boot.index ≠ 0) (isOwn : slot = 16 * cls + s.boot.index.toNat) :=
      exec_slotOpening_own contention inOrder inside strapped isOwn
    refine ⟨silent, exec_slotOpening_foreign contention inOrder inside, fun strapped isOwn => ⟨fun idle => ?_, fun f ready => ?_⟩,
      fun strapped isOwn idle => ?_, fun strapped isOwn f ready => ?_, fun strapped isOwn idle => ?_,
      fun strapped isOwn f rest ready => ?_, fun strapped isOwn idle => ?_, fun strapped isOwn f rest ready => ?_⟩
    · exact (own 0 strapped (by omega)).1 (by rw [Link.readyOf, idle]; rfl)
    · exact ⟨_, (own 0 strapped (by omega)).2 .haltHolder f (by rw [Link.readyOf, ready]; rfl), rfl, rfl⟩
    · exact (own 1 strapped isOwn).1 (by rw [Link.readyOf, idle]; rfl)
    · exact ⟨_, (own 1 strapped isOwn).2 .beaconHolder f (by rw [Link.readyOf, ready]; rfl), rfl, rfl⟩
    · exact (own 2 strapped isOwn).1 (by rw [Link.readyOf, idle]; rfl)
    · refine ⟨_, (own 2 strapped isOwn).2 .handoffFifo f (by rw [Link.readyOf, ready]; rfl), ?_, rfl⟩
      simp only [State.driven, Link.onLine, Link.start, ready, List.head?_cons]
    · exact (own 3 strapped isOwn).1 (by rw [Link.readyOf, idle]; rfl)
    · refine ⟨_, (own 3 strapped isOwn).2 .generalFifo f (by rw [Link.readyOf, ready]; rfl), ?_, rfl⟩
      simp only [State.driven, Link.onLine, Link.start, ready, List.head?_cons]
  · cases x <;> cases y <;> decide

/-! ### Frames sent and aborted (R4, R5, R13 to R16, R80) -/

theorem exec_frameSent {s : State} {p : Place} {id : Nat} (sending : s.link.line = .sending p id) (notHandoff : p ≠ .handoffFifo) :
    exec .frameSent s = .next { s with link := { s.link.release p with line := .waitGap, mismatches := 0 } } := by
  show execFrameSent s = _
  rw [execFrameSent, sending]
  cases p with
  | handoffFifo => exact absurd rfl notHandoff
  | _ => rfl

/-- A place freed in the handoff FIFO. -/
def State.handoffSent (s : State) : State :=
  { s with link := { s.link with line := .waitGap, mismatches := 0, handoffFifo := s.link.handoffFifo.tail } }

theorem exec_frameSent_handoff {s : State} {id : Nat} (sending : s.link.line = .sending .handoffFifo id) :
    exec .frameSent s = .next s.handoffSent.drainOverdue := by
  show execFrameSent s = _
  rw [execFrameSent, sending]
  rfl

theorem State.drainOverdue_none {s : State} (noneOverdue : s.anyOverdue = false) : s.drainOverdue = s := by
  have absent : s.map.features.find? (fun f => f.overdue) = none := by
    rw [State.anyOverdue, List.any_eq_false] at noneOverdue
    exact List.find?_eq_none.2 noneOverdue
  rw [State.drainOverdue, absent]

theorem State.drainOverdue_first {s : State} {before after : List Feature} {f : Feature} (features : s.map.features = before ++ f :: after)
    (overdue : f.overdue = true) (isFirst : ∀ g ∈ before, g.overdue = false) (room : s.handoffRoom = true) :
    s.drainOverdue = State.pushHandoff { s with map := { s.map with features := before ++ after } } (s.handoffOf f) := by
  have notBefore : ∀ g ∈ before, ¬ g.overdue = true := fun g mem => by simp [isFirst g mem]
  have first : s.map.features.find? (fun f => f.overdue) = some f := by
    rw [features, List.find?_append, List.find?_eq_none.2 notBefore, Option.none_or, List.find?_cons_of_pos overdue]
  have erased : s.map.features.eraseP (fun g => g.overdue) = before ++ after := by
    rw [features, List.eraseP_append_right _ notBefore, List.eraseP_cons_of_pos overdue]
  rw [State.drainOverdue, first]
  simp only [room, if_true, erased]

theorem Link.retry_spec (l : Link) (p : Place) :
    (p = .haltHolder → (l.retry p).haltOnLine = none ∧ (l.retry p).haltWaiting = l.haltWaiting.or l.haltOnLine) ∧
      (p = .beaconHolder → (l.retry p).beaconOnLine = none ∧ (l.retry p).beaconWaiting = l.beaconWaiting.or l.beaconOnLine) ∧
      (p ≠ .haltHolder → (l.retry p).haltOnLine = l.haltOnLine ∧ (l.retry p).haltWaiting = l.haltWaiting) ∧
      (p ≠ .beaconHolder → (l.retry p).beaconOnLine = l.beaconOnLine ∧ (l.retry p).beaconWaiting = l.beaconWaiting) ∧
      (l.retry p).handoffFifo = l.handoffFifo ∧ (l.retry p).generalFifo = l.generalFifo := by
  cases p with
  | haltHolder => cases waiting : l.haltWaiting <;> simp [Link.retry, waiting]
  | beaconHolder => cases waiting : l.beaconWaiting <;> simp [Link.retry, waiting]
  | handoffFifo => simp [Link.retry]
  | generalFifo => simp [Link.retry]

theorem exec_readbackMismatch {s : State} {p : Place} {id : Nat} (sending : s.link.line = .sending p id) :
    exec .readbackMismatch s =
      .next
        { s with
          link :=
            { s.link.retry p with
              line := .receiving
              mismatches := if 3 ≤ s.link.countMismatch id then 0 else s.link.countMismatch id
              mismatchFrame := some id }
          events := if 3 ≤ s.link.countMismatch id then s.events.set .linkError else s.events } := by
  show execReadbackMismatch s = _
  rw [execReadbackMismatch, sending]
  dsimp only
  split <;> rfl

/-- Settles O8: a frame sent by its place, a mismatch by `Link.retry_spec` and the count. -/
theorem framesAreSentOrMismatched : Obligations.FramesAreSentOrMismatched := by
  refine ⟨fun s id => ⟨fun line => exec_frameSent line nofun, fun line => exec_frameSent line nofun, fun line => exec_frameSent line nofun,
    fun line quiet => ?_, fun line few some unlatched f before after features overdue isFirst => ?_⟩, fun s p id line => ?_⟩
  · rw [exec_frameSent_handoff line, State.drainOverdue_none (s := s.handoffSent) quiet]
    rfl
  · have room : s.handoffSent.handoffRoom = true := by
      obtain ⟨g, gs, fifo⟩ := List.exists_cons_of_ne_nil some
      rw [fifo, List.length_cons] at few
      simp only [State.handoffRoom, State.handoffSent, fifo, List.tail_cons, unlatched, Bool.not_false, Bool.and_true, decide_eq_true_eq]
      omega
    rw [exec_frameSent_handoff line, State.drainOverdue_first (s := s.handoffSent) features overdue isFirst room]
    rfl
  · obtain ⟨halt, beacon, notHalt, notBeacon, handoff, general⟩ := s.link.retry_spec p
    refine ⟨_, exec_readbackMismatch line, rfl, rfl, fun other => ?_, fun same few => ?_, fun same third => ?_, halt, beacon, notHalt,
      notBeacon, handoff, general, rfl, rfl, ?_⟩
    · have count : s.link.countMismatch id = 1 := if_neg other
      simp [count]
    · have count : s.link.countMismatch id = s.link.mismatches + 1 := if_pos same
      have below : ¬ 3 ≤ s.link.mismatches + 1 := by omega
      simp [count, below]
    · have count : s.link.countMismatch id = s.link.mismatches + 1 := if_pos same
      have atThree : 3 ≤ s.link.mismatches + 1 := by omega
      simp [count, atThree]
    · by_cases handoff : p = .handoffFifo
      · exact ⟨_, exec_frameSent_handoff (handoff ▸ line), by simp [State.handoffSent]⟩
      · exact ⟨_, exec_frameSent line handoff, rfl⟩

/-! ### The beacon (R14, R47, R167, R201) -/

theorem Event.all_places : Event.all.map (fun e => e.priority - 1) = List.range 18 := rfl

theorem EventLatch.leadCode_eq (l : EventLatch) :
    l.leadCode = (((List.range 18).find? fun n => l.latched.getLsbD n).map (· + 1)).getD 0 := by
  have positive (e : Event) : e.priority - 1 + 1 = e.priority := Nat.sub_add_cancel e.priority_bounds.1
  have same : (fun n => l.latched.getLsbD n) ∘ (fun e : Event => e.priority - 1) = fun e => l.has e := rfl
  rw [← Event.all_places, List.find?_map, same, EventLatch.leadCode]
  cases Event.all.find? fun e => l.has e with
  | none => rfl
  | some e => exact (positive e).symm

theorem EventLatch.count_eq (l : EventLatch) : l.count = ((List.range 18).filter fun n => l.latched.getLsbD n).length := by
  rw [← Event.all_places, List.filter_map, List.length_map]
  rfl

/-- The zones below band, from bit `k` on. -/
theorem foldl_belowBand_getLsbD (zones : List Zone) (k : Nat) (v : Byte) {z : Nat} (inside : z < 8) :
    ((zones.zipIdx k).foldl (fun v zi => if zi.1.inBand then v else v ||| BitVec.twoPow 8 zi.2) v).getLsbD z =
      (v.getLsbD z || (decide (k ≤ z) && zones[z - k]?.any fun zone => !zone.inBand)) := by
  induction zones generalizing k v with
  | nil => simp
  | cons x xs ih =>
    have bit : BitVec.getLsbD (if x.inBand then v else v ||| BitVec.twoPow 8 k) z = (v.getLsbD z || (!x.inBand && decide (k = z))) := by
      cases x.inBand <;> simp [BitVec.getLsbD_twoPow]
      grind
    rw [List.zipIdx_cons, List.foldl_cons, ih, bit, Bool.or_assoc]
    congr 1
    rcases Nat.lt_trichotomy z k with before | same | after
    · simp [Nat.not_le.2 before, Nat.not_le.2 (Nat.lt_succ_of_lt before), before.ne']
    · simp [same]
    · obtain ⟨m, rfl⟩ := Nat.exists_eq_add_of_lt after
      have here : k + m + 1 - k = m + 1 := by omega
      have there : k + m + 1 - (k + 1) = m := by omega
      simp [here, there, after.ne, after.le, show k + 1 ≤ k + m + 1 by omega]

theorem State.belowBand_getLsbD (s : State) {z : Nat} (inside : z < 8) :
    s.belowBand.getLsbD z = (s.line.state.heats && s.steam.zones[z]?.any fun zone => !zone.inBand) := by
  unfold State.belowBand LineState.heats
  cases s.line.state with
  | run | stopping => exact (foldl_belowBand_getLsbD s.steam.zones 0 0 inside).trans (by simp)
  | _ => simp

theorem State.beaconQOut_running {s : State} (started : s.line.state ≠ .starting) (good : s.events.has .configBad = false) :
    s.beaconQOut = s.qOut := by
  unfold State.beaconQOut
  rw [good]
  cases state : s.line.state with
  | starting => exact absurd state started
  | _ => rfl

/-- Settles O9: the beacon's fields, each by its own rule. -/
theorem beaconCarriesTheStateAtItsBuild : Obligations.BeaconCarriesTheStateAtItsBuild := by
  intro s runs
  refine ⟨fun latched => congrArg Host.Outcome.next (if_neg fun ⟨_, unlatched⟩ => by simp [latched] at unlatched),
    fun unlatched => ⟨s.belowBand, s.events.leadCode, s.events.count, s.beaconQOut, congrArg Host.Outcome.next (if_pos ⟨runs, unlatched⟩),
      fun none => ?_, fun n latched lowest => ?_, s.events.count_eq, fun reset => ?_, fun started good => ⟨fun plain => ?_,
      fun blade playing c current => ?_⟩, fun _ z inside => ?_⟩⟩
  · rw [EventLatch.leadCode_eq, none]
    rfl
  · have inside : n < 18 := BitVec.lt_of_getLsbD latched
    have found : (List.range 18).find? (fun n => s.events.latched.getLsbD n) = some n := by
      rw [List.find?_range_eq_some]
      exact ⟨latched, List.mem_range.2 inside, fun m below => by simp [lowest m below]⟩
    rw [EventLatch.leadCode_eq, found]
    rfl
  · unfold State.beaconQOut
    rcases reset with starting | bad
    · rw [starting]
    · simp only [bad, if_true]
      cases s.line.state <;> rfl
  · rw [State.beaconQOut_running started good, State.qOut]
    rcases plain with away | ⟨notFolding, notTail⟩
    · rw [away]
      rfl
    · cases state : s.seq.state <;> simp_all
  · rw [State.beaconQOut_running started good, State.qOut, if_pos blade, State.currentQPanel, current]
    rcases playing with state | state <;> rw [state]
  · rw [s.belowBand_getLsbD inside]
    congr 1
    cases s.steam.zones[z]? <;> rfl

end Sys2Proof.Machine
end

section
/-! SUPPORT. The ceilings of the station's jobs (R129, R132, R179 to R181, R197), and the arithmetic of scaled lengths and graded folds (R120,
R123). -/

namespace Sys2Proof.Machine

/-! ### The PANEL nearest at or before a position (R172, R180) -/

theorem Feature.panel?_eq_some {f : Feature} {p : Panel} : f.panel? = some p ↔ f.body = .panel p := by
  unfold Feature.panel?
  cases f.body <;> simp

theorem atOrBefore_eq_false {p q : Pos} : atOrBefore p q = false ↔ travel q p < 0 := by
  rw [atOrBefore, decide_eq_false_iff_not, Int.not_le]

/-- The features that `State.panelAt` chooses from: none of those whose entry lies after the position. -/
theorem filter_panelsBefore_nil {fs : List Feature} {p : Pos} (behind : ∀ g ∈ fs, g.panel? ≠ none → travel p g.entry < 0) :
    fs.filter (fun f => f.panel?.isSome && atOrBefore f.entry p) = [] := by
  refine List.filter_eq_nil_iff.2 fun g mem chosen => ?_
  obtain ⟨isPanel, before⟩ := Bool.and_eq_true_iff.1 chosen
  have after := behind g mem (Option.isSome_iff_ne_none.1 isPanel)
  rw [atOrBefore_eq_false.2 after] at before
  exact absurd before nofun

theorem State.panelAt_none {s : State} {p : Pos} (behind : ∀ g ∈ s.map.features, g.panel? ≠ none → travel p g.entry < 0) :
    s.panelAt p = none := by
  rw [State.panelAt, filter_panelsBefore_nil behind]
  rfl

theorem State.panelAt_last {s : State} {p : Pos} {before after : List Feature} {f : Feature} {q : Panel}
    (features : s.map.features = before ++ f :: after) (panel : f.body = .panel q) (reached : 0 ≤ travel p f.entry)
    (behind : ∀ g ∈ after, g.panel? ≠ none → travel p g.entry < 0) : s.panelAt p = some q := by
  have isPanel := Feature.panel?_eq_some.2 panel
  have chosen : (f.panel?.isSome && atOrBefore f.entry p) = true := by
    rw [isPanel, atOrBefore, decide_eq_true reached]
    rfl
  rw [State.panelAt, features, List.filter_append, List.filter_cons_of_pos (p := fun f : Feature => f.panel?.isSome && atOrBefore f.entry p) chosen, filter_panelsBefore_nil behind, List.getLast?_concat]
  exact isPanel

/-! ### dose_max (R180) -/

theorem le_foldl_required {queue : List Segment} {g : Segment} (mem : g ∈ queue) {d : Nat} (required : g.required = some d) :
    d ≤ (queue.map fun g => g.required.getD 0).foldl max 0 :=
  mem_le_foldl_max (List.mem_map.2 ⟨g, mem, by rw [required]; rfl⟩) 0

theorem foldl_required_cases (queue : List Segment) :
    (queue.map fun g => g.required.getD 0).foldl max 0 = 0 ∨
      ∃ g ∈ queue, g.required = some ((queue.map fun g => g.required.getD 0).foldl max 0) := by
  rcases foldl_max_mem (queue.map fun g => g.required.getD 0) 0 with none | among
  · exact .inl none
  · obtain ⟨g, mem, required⟩ := List.mem_map.1 among
    cases found : g.required with
    | none =>
      rw [found] at required
      exact .inl required.symm
    | some d =>
      rw [found] at required
      exact .inr ⟨g, mem, found.trans (congrArg some required)⟩

/-- The dose that the entry panel adds. -/
def State.entryDose (s : State) : Nat :=
  match s.entryPanel with
  | some p => (p.dose.get?).getD 0
  | none => 0

theorem State.doseMax_eq (s : State) :
    s.doseMax = max ((s.dose.queue.map fun g => g.required.getD 0).foldl max 0) s.entryDose := rfl

theorem State.entryDose_of {s : State} {p : Panel} {d : Nat} (entry : s.entryPanel = some p) (dose : p.dose = .value d) :
    s.entryDose = d := by
  rw [State.entryDose, entry]
  simp only [dose, Fill.get?, Option.getD_some]

theorem State.entryDose_cases (s : State) : s.entryDose = 0 ∨ ∃ p : Panel, s.entryPanel = some p ∧ p.dose = .value s.entryDose := by
  unfold State.entryDose
  cases entry : s.entryPanel with
  | none => exact .inl rfl
  | some p => cases dose : p.dose <;> simp [Fill.get?, dose]

/-! ### The in-band length (R179) -/

theorem sum_filter_map {α : Type} (l : List α) (p : α → Bool) (f : α → Nat) :
    ((l.filter p).map f).sum = (l.map fun a => if p a then f a else 0).sum := by
  induction l with
  | nil => rfl
  | cons a l ih => cases pa : p a <;> simp [pa, ih]

theorem State.inBandLength_outside {s : State} (sound : s.zonesSound) (notRun : s.line.state ≠ .run) (notStopping : s.line.state ≠ .stopping) :
    s.inBandLength = 0 := by
  have out : s.steam.zones.filter (fun z => z.inBand) = [] := by
    refine List.filter_eq_nil_iff.2 fun z mem inBand => ?_
    obtain ⟨-, -, -, -, -, heats⟩ := sound z mem
    exact (heats inBand).elim notRun notStopping
  rw [State.inBandLength, out]
  rfl

/-- Settles O25: each ceiling by its definition, dose_max as the greatest of the queue's and the entry panel's. -/
theorem jobsSupplyTheirCeilings : Obligations.JobsSupplyTheirCeilings := by
  intro s
  refine ⟨fun c => ?_, fun none_ => ?_, fun c m blade current cMin => ?_, sum_filter_map .., State.inBandLength_outside,
    State.panelAt_none, fun before after f p features panel reached behind => State.panelAt_last features panel reached behind,
    fun g mem d required => (le_foldl_required mem required).trans (le_max_left _ _), fun p d entry dose => ?_, ?_, fun idle => ?_,
    fun fitted positive => ?_, fun idle => ?_, fun busy => ?_⟩
  · simp only [State.jobCeilings, List.mem_append, Option.mem_toList, or_assoc]
  · unfold State.pleatCeiling
    rcases none_ with away | none_ | ⟨c, current, cMin⟩
    · rw [away]; rfl
    · rw [none_]
      split <;> rfl
    · rw [current]
      simp only [cMin, ite_self]
  · simp only [State.pleatCeiling, blade, current, cMin, if_true]
  · exact (State.entryDose_of entry dose).symm.le.trans (le_max_right _ _)
  · rw [State.doseMax_eq]
    rcases le_total s.entryDose ((s.dose.queue.map fun g => g.required.getD 0).foldl max 0) with below | above
    · rw [max_eq_left below]
      exact (foldl_required_cases _).imp_right .inl
    · rw [max_eq_right above]
      exact s.entryDose_cases.imp_right .inr
  · unfold State.steamCeiling State.hasZones
    rcases idle with unfitted | zero
    · rw [unfitted]; rfl
    · rw [zero]; simp
  · have zones : s.hasZones = true := by simpa [State.hasZones] using fitted
    rw [State.steamCeiling, zones, decide_eq_true positive]
    rfl
  · rw [State.spliceCeiling, idle]
  · unfold State.spliceCeiling
    cases state : s.splice.state with
    | idle => exact absurd state busy
    | _ => rfl

/-! ### Scaled lengths (R123) -/

theorem addLength_foldl (stretch : Nat) (lengths : List Nat) (p : Play) (carried : p.remainder < 65536) :
    (lengths.foldl (fun q x => q.addLength stretch x) p).position =
        p.position + BitVec.ofNat 32 ((lengths.sum * stretch + p.remainder) / 65536) ∧
      (lengths.foldl (fun q x => q.addLength stretch x) p).remainder = (lengths.sum * stretch + p.remainder) % 65536 := by
  induction lengths generalizing p with
  | nil => simp [Nat.div_eq_of_lt carried, Nat.mod_eq_of_lt carried]
  | cons x xs ih =>
    obtain ⟨position, remainder⟩ := ih (p.addLength stretch x) (Nat.mod_lt _ (by decide))
    rw [List.foldl_cons, List.sum_cons, Nat.add_mul, position, remainder]
    simp only [Play.addLength, ahead, BitVec.add_assoc, ← BitVec.ofNat_add]
    constructor
    · congr 2
      omega
    · omega

theorem scaled_bounds {x stretch : Nat} (remainder : Nat) :
    (x ≤ 800000 → stretch ≤ 69632 → remainder ≤ 65535 → x * stretch + remainder ≤ 55705665535) ∧
      (600 ≤ x → 61440 ≤ stretch → 562 ≤ (x * stretch + remainder) / 65536) ∧
      (400 ≤ x → 61440 ≤ stretch → 375 ≤ (x * stretch + remainder) / 65536) := by
  refine ⟨fun long stretched carried => ?_, fun long stretched => ?_, fun long stretched => ?_⟩
  · have product := Nat.mul_le_mul long stretched
    omega
  all_goals
    have product := Nat.mul_le_mul long stretched
    omega

/-! ### Graded folds (R120) -/

theorem clampInt_toNat_bounds {a b : Nat} (le : a ≤ b) (v : Int) : a ≤ (clampInt a b v).toNat ∧ (clampInt a b v).toNat ≤ b := by
  have clamped := clampInt_toNat le v
  omega

/-- Settles O47. -/
theorem remaindersKeepTheScaledSum : Obligations.RemaindersKeepTheScaledSum := by
  refine ⟨fun p stretch => ⟨fun x => ⟨rfl, rfl, scaled_bounds p.remainder⟩, fun lengths zero => ?_⟩,
    fun face depth k gradeFace gradeDepth => ?_⟩
  · have folded := addLength_foldl stretch lengths p (by omega)
    rwa [zero] at folded
  · have faces := clampInt_toNat_bounds (a := 200) (b := 8000) (by decide) (face + k * gradeFace)
    have depths := clampInt_toNat_bounds (a := 100) (b := 4000) (by decide) (depth + k * gradeDepth)
    refine ⟨clampInt_toNat (by decide) _, clampInt_toNat (by decide) _, rfl, ?_, ?_⟩
    · exact Nat.add_le_add faces.1 (Nat.mul_le_mul_left 2 depths.1)
    · exact Nat.add_le_add faces.2 (Nat.mul_le_mul_left 2 depths.2)

end Sys2Proof.Machine
end

section
/-! SUPPORT. The Steam Zone Unit's samples and valves (R155 to R165). -/

namespace Sys2Proof.Machine

/-! ### A zone's sample -/

theorem LineState.heats_iff {st : LineState} : st.heats = true ↔ st = .run ∨ st = .stopping := by
  cases st <;> simp [LineState.heats]

theorem badSample_iff {raw : Nat} : badSample raw = true ↔ raw ≤ 8 ∨ 4087 ≤ raw := by
  simp [badSample]

theorem Zone.dutyFor_eq (z : Zone) (e : Int) :
    (z.dutyFor e : Int) = max 0 (min (z.cfg.period : Int) (((z.cfg.kp : Int) * e + z.integrator) / 256)) :=
  clampInt_toNat (a := 0) (Nat.zero_le _) _

theorem Zone.integrate_stands {z : Zone} {e : Int} (limit : (z.dutyFor e = z.cfg.period ∧ 0 < e) ∨ (z.dutyFor e = 0 ∧ e < 0)) :
    z.integrate e = z.integrator :=
  if_pos limit

theorem Zone.integrate_moves {z : Zone} {e : Int} (free : ¬ ((z.dutyFor e = z.cfg.period ∧ 0 < e) ∨ (z.dutyFor e = 0 ∧ e < 0))) :
    z.integrate e =
      max (-((z.cfg.period : Int) * 256)) (min ((z.cfg.period : Int) * 256) (z.integrator + (z.cfg.ki : Int) * e)) :=
  (if_neg free).trans (clampInt_eq_max_min (by omega) _)

section
variable {z : Zone} {st : LineState} {raw : Nat}

/-- The zone that a sample judges, with the setpoint in use. -/
def Zone.withSetpoint (z : Zone) (st : LineState) : Zone := { z with setpointInUse := z.cfg.setpointFor st }

/-- The zone a sample leaves, but for its band. -/
def Zone.sampled (z : Zone) (st : LineState) (raw : Nat) : Zone :=
  if badSample raw then (z.withSetpoint st).takeBad else (z.withSetpoint st).takeGood (temperatureOf raw)

theorem Zone.sample_eq : z.sample st raw = { z.sampled st raw with inBand := (z.sampled st raw).bandTest st } := rfl

theorem Zone.sampled_bad_faulted (bad : badSample raw = true) (faulted : z.faulted = true) :
    z.sampled st raw = { z with setpointInUse := z.cfg.setpointFor st, good := 0 } :=
  (if_pos bad).trans (if_pos faulted)

theorem Zone.sampled_bad_counts (bad : badSample raw = true) (sound : z.faulted = false) (few : z.bad < 2) :
    z.sampled st raw = { z with setpointInUse := z.cfg.setpointFor st, bad := z.bad + 1 } :=
  (if_pos bad).trans ((if_neg (Bool.eq_false_iff.1 sound)).trans
    (if_neg (show ¬ 3 ≤ z.bad + 1 by omega)))

theorem Zone.sampled_bad_faults (bad : badSample raw = true) (sound : z.faulted = false) (third : 2 ≤ z.bad) :
    z.sampled st raw = Zone.fault { z with setpointInUse := z.cfg.setpointFor st, bad := 3 } :=
  (if_pos bad).trans ((if_neg (Bool.eq_false_iff.1 sound)).trans
    (if_pos (show 3 ≤ z.bad + 1 by omega)))

theorem Zone.sampled_good_waits (good : ¬ badSample raw = true) (faulted : z.faulted = true) (few : z.good < 2) :
    z.sampled st raw = { z with setpointInUse := z.cfg.setpointFor st, temperature := some (temperatureOf raw), good := z.good + 1 } :=
  (if_neg good).trans ((if_pos faulted).trans (if_neg (show ¬ 3 ≤ z.good + 1 by omega)))

/-- The zone that a good sample controls. -/
def Zone.controlled (z : Zone) (st : LineState) (raw : Nat) : Zone :=
  { z with
    setpointInUse := z.cfg.setpointFor st
    temperature := some (temperatureOf raw)
    faulted := false
    good := if z.faulted then 3 else z.good
    bad := 0 }

theorem Zone.sampled_good_controls (good : ¬ badSample raw = true) (sound : z.faulted = false ∨ 2 ≤ z.good) :
    z.sampled st raw = (z.controlled st raw).control (temperatureOf raw) := by
  unfold Zone.sampled Zone.controlled
  rw [if_neg good]
  by_cases faulted : z.faulted = true
  · have third : 3 ≤ z.good + 1 := by
      have := sound.resolve_left (by simp [faulted])
      omega
    rw [if_pos faulted]
    exact (if_pos faulted).trans (if_pos third)
  · rw [if_neg faulted]
    refine (if_neg faulted).trans ?_
    rw [Zone.withSetpoint, Bool.eq_false_of_not_eq_true faulted]

theorem Zone.sampled_cfg : (z.sampled st raw).cfg = z.cfg ∧ (z.sampled st raw).setpointInUse = z.cfg.setpointFor st := by
  by_cases bad : badSample raw = true
  · by_cases faulted : z.faulted = true
    · rw [Zone.sampled_bad_faulted bad faulted]
      exact ⟨rfl, rfl⟩
    · rcases Nat.lt_or_ge z.bad 2 with few | third
      · rw [Zone.sampled_bad_counts bad (Bool.eq_false_of_not_eq_true faulted) few]
        exact ⟨rfl, rfl⟩
      · rw [Zone.sampled_bad_faults bad (Bool.eq_false_of_not_eq_true faulted) third]
        exact ⟨rfl, rfl⟩
  · by_cases waits : z.faulted = true ∧ z.good < 2
    · rw [Zone.sampled_good_waits bad waits.1 waits.2]
      exact ⟨rfl, rfl⟩
    · rw [Zone.sampled_good_controls bad (by grind)]
      exact ⟨rfl, rfl⟩

theorem Zone.bandTest_iff :
    z.bandTest st = true ↔ z.faulted = false ∧ (st = .run ∨ st = .stopping) ∧
      ∃ temp, z.temperature = some temp ∧ (z.cfg.setpoint : Int) - (z.cfg.band : Int) ≤ (temp : Int) := by
  rw [Zone.bandTest, Bool.and_eq_true, Bool.and_eq_true, LineState.heats_iff, Bool.not_eq_true', and_assoc]
  refine and_congr_right fun _ => and_congr_right fun _ => ?_
  cases z.temperature <;> simp

theorem Zone.bandTest_faulted (faulted : z.faulted = true) : z.bandTest st = false := by
  rw [Zone.bandTest, faulted]
  rfl

theorem Zone.sample_inBand :
    (z.sample st raw).inBand = true ↔ (z.sample st raw).faulted = false ∧ (st = .run ∨ st = .stopping) ∧
      ∃ temp, (z.sample st raw).temperature = some temp ∧ (z.cfg.setpoint : Int) - (z.cfg.band : Int) ≤ (temp : Int) := by
  rw [Zone.sample_eq, ← Zone.sampled_cfg (z := z) (st := st) (raw := raw).1]
  exact Zone.bandTest_iff

end

/-- The control law, for the duty that is formed of the error (R161, R162). -/
theorem Zone.control_spec {z : Zone} {temp duty : Nat} {e : Int} (error : e = (z.setpointInUse : Int) - (temp : Int))
    (formed : (duty : Int) = max 0 (min (z.cfg.period : Int) (((z.cfg.kp : Int) * e + z.integrator) / 256))) :
    (z.control temp).pendingDuty = some duty ∧
      ((duty = z.cfg.period ∧ 0 < e) ∨ (duty = 0 ∧ e < 0) → (z.control temp).integrator = z.integrator) ∧
      (¬ ((duty = z.cfg.period ∧ 0 < e) ∨ (duty = 0 ∧ e < 0)) →
        (z.control temp).integrator =
          max (-((z.cfg.period : Int) * 256)) (min ((z.cfg.period : Int) * 256) (z.integrator + (z.cfg.ki : Int) * e))) := by
  obtain rfl : e = z.error temp := error
  obtain rfl : duty = z.dutyFor (z.error temp) := Int.ofNat_inj.1 (formed.trans (z.dutyFor_eq _).symm)
  exact ⟨rfl, Zone.integrate_stands, Zone.integrate_moves⟩

/-! ### The commands -/

/-- A conversion handled: the zone's record, and the event of a zone that newly becomes FAULTED. -/
theorem exec_zoneConversionComplete {s : State} {i : Nat} {rest : List Nat} {z : Zone} (raw : BitVec 12)
    (converting : s.steam.converting = i :: rest) (zone : s.steam.zones[i]? = some z) :
    exec (.zoneConversionComplete i raw) s =
      .next
        { s with
          steam := { s.steam with converting := rest, zones := s.steam.zones.set i (z.sample s.line.state raw.toNat) }
          events :=
            if ((z.sample s.line.state raw.toNat).faulted && !z.faulted) = true then s.events.set .zoneSensor else s.events } := by
  show execZoneConversionComplete i raw s = _
  rw [execZoneConversionComplete, converting, zone, List.head?_cons, if_pos rfl]
  simp only [State.takeSample, converting, List.tail_cons]
  split <;> rfl

theorem exec_valveActiveEnd {s : State} {i : Nat} {z : Zone} (zone : s.steam.zones[i]? = some z) (active : z.active = true) :
    exec (.valveActiveEnd i) s = .next (if z.duty < z.cfg.period then s.setZone i { z with active := false } else s) := by
  show execValveActiveEnd i s = _
  rw [execValveActiveEnd, zone]
  simp only [active, Bool.true_and, decide_eq_true_eq]

theorem State.valveLevel_fitted {s : State} {i : Nat} {z : Zone} (zone : s.steam.zones[i]? = some z)
    (good : s.events.has .configBad = false) : s.valveLevel i = if z.active = z.cfg.activeLow then .low else .high := by
  rw [State.valveLevel, zone]
  exact if_neg (Bool.eq_false_iff.1 good)

/-- Settles O49: a sample's six outcomes by the lemmas on `Zone.sampled`. -/
theorem samplesDriveTheValves : Obligations.SamplesDriveTheValves := by
  refine fun s => ⟨fun runs => congrArg Host.Outcome.next (if_pos runs), fun i rest z raw converting zone => ?_, fun i z zone => ⟨fun runs => ?_,
    fun active => ⟨fun short => ?_, fun long => ?_⟩⟩, fun i => ⟨fun dark => ?_, fun z zone good => ⟨fun high => ?_, fun low => ?_⟩⟩⟩
  · refine ⟨_, z.sample s.line.state raw.toNat, exec_zoneConversionComplete raw converting zone, rfl, ?_, Zone.sample_inBand,
      fun bad => ⟨fun faulted => ?_, fun sound few => ?_, fun sound third => ?_⟩, fun low high => ?_⟩
    · rw [Zone.sample_eq, (Zone.sampled_cfg (z := z)).2, ZoneConfig.setpointFor]
      simp only [LineState.heats_iff]
    · have sampled := Zone.sampled_bad_faulted (st := s.line.state) (badSample_iff.2 bad) faulted
      have unbanded : (z.sampled s.line.state raw.toNat).bandTest s.line.state = false :=
        Zone.bandTest_faulted (by rw [sampled]; exact faulted)
      rw [Zone.sample_eq, unbanded, sampled]
      exact ⟨if_neg (by simp [faulted]), rfl⟩
    · have sampled := Zone.sampled_bad_counts (st := s.line.state) (badSample_iff.2 bad) sound few
      rw [Zone.sample_eq, sampled]
      exact ⟨if_neg (by simp [sound]), rfl⟩
    · have sampled := Zone.sampled_bad_faults (st := s.line.state) (badSample_iff.2 bad) sound third
      rw [Zone.sample_eq, sampled]
      exact ⟨if_pos (by simp [sound, Zone.fault]), rfl⟩
    · have good : ¬ badSample raw.toNat = true := by
        rw [badSample_iff]
        omega
      by_cases waits : z.faulted = true ∧ z.good < 2
      · have sampled := Zone.sampled_good_waits (st := s.line.state) good waits.1 waits.2
        have unbanded : (z.sampled s.line.state raw.toNat).bandTest s.line.state = false :=
          Zone.bandTest_faulted (by rw [sampled]; exact waits.1)
        rw [Zone.sample_eq, unbanded, sampled]
        exact ⟨if_neg (by simp [waits.1]), rfl, fun _ _ => rfl, fun done => absurd waits (by grind)⟩
      · have done : z.faulted = false ∨ 2 ≤ z.good := by grind
        have sampled := Zone.sampled_good_controls (st := s.line.state) good done
        rw [Zone.sample_eq, sampled]
        refine ⟨(if_neg Bool.false_ne_true : (if false = true then s.events.set .zoneSensor else s.events) = s.events), rfl, fun faulted few => absurd ⟨faulted, few⟩ waits, fun _ =>
          ⟨rfl, rfl, rfl, rfl, rfl, rfl, fun e duty error formed => ?_⟩⟩
        exact Zone.control_spec (z := z.controlled s.line.state raw.toNat) (temp := temperatureOf raw.toNat) error formed
  · show execValvePeriodStart i s = _
    rw [execValvePeriodStart, zone]
    exact congrArg Host.Outcome.next (if_pos runs)
  · exact (exec_valveActiveEnd zone active).trans (congrArg _ (if_pos short))
  · rw [exec_valveActiveEnd zone active, if_neg (Nat.not_lt.2 long)]
  · unfold State.valveLevel
    rcases dark with unfitted | bad
    · rw [unfitted]
    · rw [bad]
      split <;> rfl
  · rw [State.valveLevel_fitted zone good, high]
    cases z.active <;> rfl
  · rw [State.valveLevel_fitted zone good, low]

end Sys2Proof.Machine
end

section
/-! SUPPORT. How a panel is condemned (R78, R86), and the segments of the Dose Accountant (R170 to R177). -/

namespace Sys2Proof.Machine

/-! ### A cause set on a panel of the list, or noticed (R78, R86, R93) -/

section
variable {s : State} {n : Nat} {c : RejectCause}

/-- A panel of the list takes its first cause. -/
def State.caused (s : State) (n : Nat) (c : RejectCause) : State :=
  { s with
    plan := s.planAfter n c
    map := { s.map with features := modifyFirst (fun f => f.isPanel n) (fun f => f.mapPanel fun q => q.withCause c) s.map.features }
    tracker := { s.tracker with ref := rejectRef s.tracker.ref n } }

theorem State.condemn_listed {p : Panel} (listed : s.panel? n = some p) :
    s.condemn n c = if p.cause = none then s.caused n c else s := by
  rw [State.condemn, if_pos (by rw [listed]; rfl), State.setCause, listed]
  simp only [Option.isNone_iff_eq_none, State.caused]

theorem State.condemn_gone (gone : s.panel? n = none) : s.condemn n c = s.noticeOf n c := by
  rw [State.condemn, if_neg (by rw [gone]; nofun)]

theorem State.caused_panel? (m : Nat) : (s.caused n c).panel? m = (s.panel? m).map fun q => if m = n then q.withCause c else q :=
  panel_find_withCause n m c s.map.features

theorem State.caused_panel?_self {p : Panel} (listed : s.panel? n = some p) :
    (s.caused n c).panel? n = some { p with cause := some (p.cause.getD c) } := by
  rw [State.caused_panel?, listed, Option.map_some, if_pos rfl, Panel.withCause_eq]

theorem State.handoffRoom_iff : s.handoffRoom = true ↔ s.link.handoffFifo.length < 8 ∧ s.events.has .duplicateIndex = false := by
  rw [State.handoffRoom, Bool.and_eq_true, decide_eq_true_eq, Bool.not_eq_true']

theorem State.noticeOf_last (last : s.isLast = true) : s.noticeOf n c = s.flag .lateReject := by
  simp only [State.noticeOf, State.rejectNotice, last, if_true]

theorem State.noticeOf_room (notLast : s.isLast = false) (room : s.handoffRoom = true) :
    s.noticeOf n c =
      { s.pushHandoff (.handoffReject (BitVec.ofNat 32 n) (BitVec.ofNat 8 c.code)) with plan := s.planAfter n c } := by
  simp only [State.noticeOf, State.rejectNotice, notLast, room, if_true, Bool.false_eq_true, if_false]

theorem State.noticeOf_full (notLast : s.isLast = false) (full : s.handoffRoom = false) :
    s.noticeOf n c = { s.flag .lateReject with plan := s.planAfter n c } := by
  simp only [State.noticeOf, State.rejectNotice, notLast, full, Bool.false_eq_true, if_false]

theorem State.noticeOf_frame :
    s.noticeOf n c =
      { s with
        link := (s.noticeOf n c).link
        events := (s.noticeOf n c).events
        plan := (s.noticeOf n c).plan } := by
  cases last : s.isLast with
  | true => rw [State.noticeOf_last last]; rfl
  | false =>
    cases room : s.handoffRoom with
    | true => rw [State.noticeOf_room last room]; rfl
    | false => rw [State.noticeOf_full last room]; rfl

theorem State.noticeOf_plan : (s.noticeOf n c).plan = if s.isLast then s.plan else s.planAfter n c := by
  cases last : s.isLast with
  | true => rw [State.noticeOf_last last]; rfl
  | false => simp [State.noticeOf, last]

theorem State.condemn_frame :
    s.condemn n c =
      { s with
        map := (s.condemn n c).map
        link := (s.condemn n c).link
        events := (s.condemn n c).events
        plan := (s.condemn n c).plan
        tracker := { s.tracker with ref := (s.condemn n c).tracker.ref } } := by
  cases listed : s.panel? n with
  | none =>
    rw [State.condemn_gone listed]
    exact State.noticeOf_frame.trans (by simp)
  | some p =>
    rw [State.condemn_listed listed]
    split <;> rfl

theorem State.condemn_plan :
    (s.condemn n c).plan = s.plan ∨ (s.condemn n c).plan = s.planAfter n c := by
  cases listed : s.panel? n with
  | none =>
    rw [State.condemn_gone listed, State.noticeOf_plan]
    split
    · exact .inl rfl
    · exact .inr rfl
  | some p =>
    rw [State.condemn_listed listed]
    split
    · exact .inr rfl
    · exact .inl rfl

theorem State.planAfter_away (away : s.cfg.origin = false) : s.planAfter n c = s.plan := by
  unfold State.planAfter
  split
  · exact if_neg fun ⟨origin, _⟩ => by simp [away] at origin
  · rfl

theorem State.condemn_planKept : s.planKept (s.condemn n c) :=
  State.condemn_plan.elim .inl (s.planAfter_kept _ n c)

end

/-! ### The dose of a segment (R174) -/

theorem State.inSteam_iff {s : State} {g : Segment} :
    s.inSteam g = true ↔ ∃ z ∈ s.steam.zones, z.inBand = true ∧
      (z.cfg.start : Int) ≤ travel s.tracker.position g.close + ((s.cfg.segLen / 2 : Nat) : Int) ∧
      travel s.tracker.position g.close + ((s.cfg.segLen / 2 : Nat) : Int) < (z.cfg.stop : Int) := by
  simp only [State.inSteam, List.any_eq_true, Bool.and_eq_true, decide_eq_true_eq, and_assoc]

/-! ### The head segment at the exit (R176, R177) -/

section
variable {s : State} {g : Segment} {rest : List Segment}

theorem State.segmentDue_cons (queue : s.dose.queue = g :: rest) :
    s.segmentDue = if (s.segmentOut g && !g.waits) = true then some g else none := by
  rw [State.segmentDue, queue]

theorem State.segmentOut_iff : s.segmentOut g = true ↔ (s.cfg.lSpan : Int) ≤ travel s.tracker.position g.close := by
  simp [State.segmentOut, reaches]

theorem Segment.waits_iff : g.waits = true ↔ g.splice = false ∧ g.rejected = false ∧ g.required = none := by
  simp [Segment.waits, and_assoc]

theorem Segment.underdosed_iff :
    g.underdosed = true ↔ g.splice = false ∧ g.rejected = false ∧ ∃ r, g.required = some r ∧ g.dose < r := by
  rw [Segment.underdosed, Bool.and_eq_true, Bool.and_eq_true, Bool.not_eq_true', Bool.not_eq_true', and_assoc]
  refine and_congr_right fun _ => and_congr_right fun _ => ?_
  cases g.required <;> simp

/-- The state with the head segment removed. -/
def State.segmentGone (s : State) : State := { s with dose := { s.dose with queue := s.dose.queue.tail } }

theorem State.judge_good (good : ¬ (g.underdosed = true ∧ g.panel ≠ s.dose.lastRejected)) : s.judge g = s.segmentGone :=
  if_neg (by simpa using good)

theorem State.judge_under (under : g.underdosed = true) (fresh : g.panel ≠ s.dose.lastRejected) :
    s.judge g =
      State.condemn { s with dose := { s.dose with queue := s.dose.queue.tail, lastRejected := g.panel } } g.panel .underdosed :=
  if_pos (by simp [under, fresh])

theorem exec_segmentAtExit (queue : s.dose.queue = g :: rest) :
    exec .segmentAtExit s =
      .next (if (s.cfg.lSpan : Int) ≤ travel s.tracker.position g.close ∧ ¬ g.waits = true then s.judge g else s) := by
  show execSegmentAtExit s = _
  rw [execSegmentAtExit, State.segmentDue_cons queue]
  simp only [Bool.and_eq_true, State.segmentOut_iff, Bool.not_eq_true', Bool.not_eq_true]
  by_cases due : (s.cfg.lSpan : Int) ≤ travel s.tracker.position g.close ∧ g.waits = false
  · simp only [if_pos due]
  · simp only [if_neg due]

/-- No segment leaves while the head one is not at the exit. -/
theorem State.judgeAll_none (noneDue : s.segmentDue = none) (n : Nat) : State.judgeAll n s = s := by
  cases n with
  | zero => rfl
  | succ n => rw [State.judgeAll, noneDue]

end

/-! ### A new segment (R171, R172) -/

theorem exec_segmentBoundary {s : State} (runs : s.dose.timer ≠ none) (reached : 0 ≤ travel s.tracker.position s.dose.nextBoundary)
    (room : s.dose.queue.length < 64)
    (within : ∀ g, s.dose.queue.head? = some g → travel s.tracker.position g.close < (s.cfg.lSpan : Int)) :
    exec .segmentBoundary s =
      .next
        { s with
          dose :=
            { s.dose with
              queue := s.dose.queue ++ [s.newSegment s.dose.nextBoundary]
              nextBoundary := s.dose.nextBoundary + BitVec.ofNat 32 s.cfg.segLen } } := by
  have noneDue : s.segmentDue = none := by
    cases queue : s.dose.queue with
    | nil => rw [State.segmentDue, queue]
    | cons g rest =>
      have inside := within g (by rw [queue]; rfl)
      rw [State.segmentDue_cons queue, if_neg]
      rw [Bool.and_eq_true, State.segmentOut_iff]
      omega
  have goes : exec .segmentBoundary s = .next s.makeSegment :=
    congrArg Host.Outcome.next (if_pos ⟨runs, decide_eq_true (by simpa using reached)⟩)
  rw [goes, State.makeSegment, State.judgeAll_none noneDue]
  simp only [if_pos room]
  rfl

section
variable {s : State} {close : Pos}

theorem State.newSegment_of_panel {p : Panel} (charged : s.panelAt close = some p) :
    s.newSegment close =
      { close := close, panel := p.number, required := p.dose.asRequired, splice := s.spliceIn close, rejected := p.cause.isSome
        dose := 0 } := by
  rw [State.newSegment, charged]

theorem State.newSegment_of_none (charged : s.panelAt close = none) :
    s.newSegment close =
      { close := close, panel := 0, required := some 0, splice := s.spliceIn close, rejected := false, dose := 0 } := by
  rw [State.newSegment, charged]

theorem State.newSegment_common :
    (s.newSegment close).close = close ∧ (s.newSegment close).dose = 0 ∧ (s.newSegment close).splice = s.spliceIn close := by
  unfold State.newSegment
  split <;> exact ⟨rfl, rfl, rfl⟩

theorem State.spliceIn_iff :
    s.spliceIn close = true ↔ ∃ f ∈ s.map.features, ∃ n a, f.body = .splice n a ∧ 0 ≤ travel close f.entry ∧
      travel (close - BitVec.ofNat 32 s.cfg.segLen) f.entry < 0 := by
  rw [State.spliceIn, List.any_eq_true]
  refine exists_congr fun f => and_congr_right fun _ => ?_
  cases f.body <;> simp [atOrBefore]

end

/-- Settles O50: the credit of each segment, the segment made at a boundary, and the head segment by `exec_segmentAtExit`. -/
theorem dosesAreCreditedAndJudged : Obligations.DosesAreCreditedAndJudged := by
  refine ⟨fun s runs => ?_, fun s => ⟨fun runs => ⟨fun early => ?_, fun reached room within => ?_⟩, fun g rest queue => ⟨fun inside => ?_,
    fun out => ⟨fun kept => ?_, fun spliceFree unrejected pending => ?_, fun spliceFree unrejected r required under fresh => ?_⟩⟩⟩⟩
  · refine ⟨_, congrArg Host.Outcome.next (if_pos runs), rfl, by simp, fun n g d at_ midpoint => ?_⟩
    subst midpoint
    simp only [List.getElem?_map, at_, Option.map_some, Option.some.injEq]
    refine ⟨fun covered => if_pos (State.inSteam_iff.2 covered), fun outside => if_neg fun covered => ?_⟩
    obtain ⟨z, mem, inBand, after, before⟩ := State.inSteam_iff.1 covered
    exact (outside z mem inBand).elim (not_lt_of_ge after) (not_le_of_gt before)
  · exact congrArg Host.Outcome.next (if_neg fun ⟨_, reached⟩ => by simp [reaches, not_le_of_gt early] at reached)
  · refine ⟨_, exec_segmentBoundary runs reached room within, State.newSegment_common.1, State.newSegment_common.2.1,
      fun before f after p features panel before_ behind => ?_, fun behind => ?_, ?_⟩
    · have charged : s.panelAt s.dose.nextBoundary = some p :=
        State.panelAt_last features panel (by rwa [State.newSegment_common.1] at before_) fun g mem isPanel => by
          obtain ⟨q, found⟩ := Option.ne_none_iff_exists'.1 isPanel
          have := behind g mem q (Feature.panel?_eq_some.1 found)
          rwa [State.newSegment_common.1] at this
      rw [State.newSegment_of_panel charged]
      exact ⟨rfl, rfl, fun d dose => by rw [dose]; rfl, fun dose => by rw [dose]; rfl⟩
    · have charged : s.panelAt s.dose.nextBoundary = none := State.panelAt_none fun g mem isPanel => by
        obtain ⟨q, found⟩ := Option.ne_none_iff_exists'.1 isPanel
        have := behind g mem q (Feature.panel?_eq_some.1 found)
        rwa [State.newSegment_common.1] at this
      rw [State.newSegment_of_none charged]
      exact ⟨rfl, rfl, rfl⟩
    · obtain ⟨close, -, splice⟩ := State.newSegment_common (s := s) (close := s.dose.nextBoundary)
      rw [splice, close]
      exact State.spliceIn_iff
  · rw [exec_segmentAtExit queue, if_neg fun ⟨out, _⟩ => absurd inside (not_lt_of_ge out)]
  · have judged : ¬ g.waits = true := fun waits => by
      obtain ⟨spliceFree, unrejected, pending⟩ := Segment.waits_iff.1 waits
      simp [spliceFree, unrejected, pending] at kept
    have good : ¬ (g.underdosed = true ∧ g.panel ≠ s.dose.lastRejected) := fun ⟨under, fresh⟩ => by
      obtain ⟨spliceFree, unrejected, r, required, short⟩ := Segment.underdosed_iff.1 under
      rcases kept with splice | rejected | ⟨q, same, enough⟩ | ⟨q, same, last⟩
      · simp [spliceFree] at splice
      · simp [unrejected] at rejected
      · obtain rfl := Option.some.inj (required.symm.trans same)
        omega
      · exact fresh last
    rw [exec_segmentAtExit queue, if_pos ⟨out, judged⟩, State.judge_good good, State.segmentGone, queue]
    rfl
  · rw [exec_segmentAtExit queue, if_neg fun ⟨_, judged⟩ => judged (Segment.waits_iff.2 ⟨spliceFree, unrejected, pending⟩)]
  · have judged : ¬ g.waits = true := fun waits => by simp [(Segment.waits_iff.1 waits).2.2] at required
    let u : State := { s with dose := { s.dose with queue := rest, lastRejected := g.panel } }
    have goes : exec .segmentAtExit s = .next (u.condemn g.panel .underdosed) := by
      rw [exec_segmentAtExit queue, if_pos ⟨out, judged⟩,
        State.judge_under (Segment.underdosed_iff.2 ⟨spliceFree, unrejected, r, required, under⟩) fresh, queue]
      rfl
    refine ⟨_, goes, by simp [u], fun p listed => ?_, fun gone => ?_, State.condemn_planKept (s := u), fun away => ?_, ?_⟩
    · rw [State.condemn_listed (s := u) listed]
      by_cases first : p.cause = none
      · rw [if_pos first]
        exact ⟨fun _ => by rw [State.caused_panel?_self (s := u) listed, first]; rfl, fun caused => absurd first caused, rfl, rfl⟩
      · rw [if_neg first]
        exact ⟨fun none_ => absurd none_ first, fun _ => rfl, rfl, rfl⟩
    · rw [State.condemn_gone (s := u) gone]
      refine ⟨by simp [u], fun notLast few unlatched => ?_, fun dropped => ?_⟩
      · rw [State.noticeOf_room (s := u) notLast (State.handoffRoom_iff.2 ⟨few, unlatched⟩)]
        exact ⟨rfl, rfl⟩
      · cases last : s.isLast with
        | true =>
          rw [State.noticeOf_last (s := u) last]
          exact ⟨rfl, rfl⟩
        | false =>
          have full : u.handoffRoom = false := by
            rw [← Bool.not_eq_true, State.handoffRoom_iff]
            exact fun ⟨few, _⟩ => absurd few (Nat.not_lt.2 (dropped.resolve_left (by simp [last])))
          rw [State.noticeOf_full (s := u) last full]
          exact ⟨rfl, rfl⟩
    · exact (State.condemn_plan (s := u)).elim id fun plan => plan.trans (State.planAfter_away (s := u) away)
    · rw [show (u.condemn g.panel .underdosed).dose = u.dose by simp]
      exact State.condemn_frame

end Sys2Proof.Machine
end

section
/-! SUPPORT. The rolls: the ROLL frame, the run-out and the arming test (R184 to R188). -/

namespace Sys2Proof.Machine

/-! ### The roll records (R183) -/

section
variable {u : Splice} {side : Side}

@[simp] theorem Side.other_other (side : Side) : side.other.other = side := by cases side <;> rfl

theorem Splice.setRoll_roll (u : Splice) (side : Side) (r : Roll) :
    (u.setRoll side r).roll side = r ∧ (u.setRoll side r).roll side.other = u.roll side.other := by
  cases side <;> exact ⟨rfl, rfl⟩

theorem Splice.setRoll_state (u : Splice) (side : Side) (r : Roll) : (u.setRoll side r).state = u.state := by cases side <;> rfl

theorem Splice.sideIn_eq {st : RollState} (here : (u.roll side).state = st) (alone : (u.roll side.other).state ≠ st) :
    u.sideIn st = some side := by
  cases side with
  | a => exact if_pos here
  | b => exact (if_neg alone).trans (if_pos here)

theorem Splice.sideIn_none {st : RollState} (here : (u.roll side).state ≠ st) (there : (u.roll side.other).state ≠ st) :
    u.sideIn st = none := by
  cases side with
  | a => exact (if_neg here).trans (if_neg there)
  | b => exact (if_neg there).trans (if_neg here)

/-- Outside the strobes the incoming position is the other than the ACTIVE one. -/
theorem Splice.incoming_eq (notPasting : u.state ≠ .pasting) (notCutting : u.state ≠ .cutting)
    (active : (u.roll side).state = .active) (alone : (u.roll side.other).state ≠ .active) : u.incoming = some side.other := by
  have running := Splice.sideIn_eq active alone
  unfold Splice.incoming
  rw [running]
  cases state : u.state with
  | pasting => exact absurd state notPasting
  | cutting => exact absurd state notCutting
  | _ => rfl

theorem Splice.incomingLoaded_eq (notPasting : u.state ≠ .pasting) (notCutting : u.state ≠ .cutting)
    (active : (u.roll side).state = .active) (alone : (u.roll side.other).state ≠ .active) :
    u.incomingLoaded = decide ((u.roll side.other).state = .loaded) := by
  rw [Splice.incomingLoaded, Splice.incoming_eq notPasting notCutting active alone]

theorem Splice.busy_strobes (rolling : u.state = .pasting ∨ u.state = .cutting) : u.busy side = true := by
  unfold Splice.busy
  rcases rolling with state | state <;> rw [state]

theorem Splice.busy_of_record (held : (u.roll side).state = .active ∨ (u.roll side).state = .expiring) : u.busy side = true := by
  unfold Splice.busy
  cases u.state <;> rcases held with state | state <;> simp [state]

theorem Splice.busy_incoming (matching : u.state = .matching) (incoming : u.incoming = some side) : u.busy side = true := by
  simp [Splice.busy, matching, incoming]

theorem Splice.not_busy (free : u.state = .idle ∨ u.state = .armed ∨ u.state = .inhibited) (notActive : (u.roll side).state ≠ .active)
    (notExpiring : (u.roll side).state ≠ .expiring) : ¬ u.busy side = true := by
  unfold Splice.busy
  rcases free with state | state | state <;> rw [state] <;> simp [notActive, notExpiring]

end

/-! ### The tests of R187 and R188 -/

section
variable {s : State} {side : Side}

theorem State.tryMatching_rolls (side : Side) : s.tryMatching.splice.roll side = s.splice.roll side := by
  cases side <;> simp [Splice.roll]

/-- The test of R188 with one roll ACTIVE. -/
theorem State.tryMatching_state (notPasting : s.splice.state ≠ .pasting) (notCutting : s.splice.state ≠ .cutting)
    (active : (s.splice.roll side).state = .active) (alone : (s.splice.roll side.other).state ≠ .active) :
    s.tryMatching.splice.state =
      if s.splice.state = .armed ∧ (s.splice.roll side.other).state = .loaded ∧ s.line.state = .run then .matching
      else s.splice.state := by
  have loaded := Splice.incomingLoaded_eq notPasting notCutting active alone
  split
  · next begins =>
    obtain ⟨armed, isLoaded, run⟩ := begins
    exact (State.tryMatching_matches armed (by rw [loaded]; exact decide_eq_true isLoaded) run).1
  · next stays =>
    rw [State.tryMatching_stays]
    rw [loaded, decide_eq_true_eq]
    exact stays

theorem State.armingDue_iff {r : Nat} (active : (s.splice.roll side).state = .active) (alone : (s.splice.roll side.other).state ≠ .active)
    (remaining : (s.splice.roll side).remaining = some r) : s.armingDue = true ↔ r ≤ s.cfg.spliceAt := by
  rw [State.armingDue, Splice.sideIn_eq active alone]
  simp only [remaining, decide_eq_true_eq]

/-- The state with the splice ARMED. -/
def State.armed (s : State) : State := { s with splice := { s.splice with state := .armed } }

theorem State.armTest_due {r : Nat} (idle : s.splice.state = .idle) (active : (s.splice.roll side).state = .active)
    (alone : (s.splice.roll side.other).state ≠ .active) (remaining : (s.splice.roll side).remaining = some r)
    (short : r ≤ s.cfg.spliceAt) : s.armTest = s.armed.tryMatching :=
  if_pos ⟨idle, (State.armingDue_iff active alone remaining).2 short⟩

theorem State.armTest_long {r : Nat} (active : (s.splice.roll side).state = .active)
    (alone : (s.splice.roll side.other).state ≠ .active) (remaining : (s.splice.roll side).remaining = some r)
    (long : s.cfg.spliceAt < r) : s.armTest = s :=
  if_neg fun ⟨_, due⟩ => absurd ((State.armingDue_iff active alone remaining).1 due) (Nat.not_le.2 long)

theorem State.armTest_busy (busy : s.splice.state ≠ .idle) : s.armTest = s := if_neg fun ⟨idle, _⟩ => busy idle

theorem State.armTest_frame : s.armTest = { s with splice := s.armTest.splice, step1 := s.armTest.step1 } := by
  by_cases due : s.splice.state = .idle ∧ s.armingDue = true
  · have goes : s.armTest = s.armed.tryMatching := if_pos due
    rw [goes]
    exact State.tryMatching_frame _
  · have goes : s.armTest = s := if_neg due
    rw [goes]

theorem State.armTest_rolls (side : Side) : s.armTest.splice.roll side = s.splice.roll side := by
  by_cases due : s.splice.state = .idle ∧ s.armingDue = true
  · have goes : s.armTest = s.armed.tryMatching := if_pos due
    rw [goes, State.tryMatching_rolls]
    cases side <;> rfl
  · have goes : s.armTest = s := if_neg due
    rw [goes]

end

/-! ### ROLL (R184) -/

section
variable {s : State} {position rollId length : Nat} {side : Side}

theorem State.takeRoll_unfitted (unfitted : s.cfg.origin = false ∨ s.cfg.unwind = false) :
    s.takeRoll position rollId length = s.refuse .roll .notFitted :=
  if_pos (by rcases unfitted with none | none <;> simp [State.hasSpliceUnit, none])

theorem State.takeRoll_outOfRange (origin : s.cfg.origin = true) (unwind : s.cfg.unwind = true) (outside : 1 < position ∨ length = 0) :
    s.takeRoll position rollId length = s.refuse .roll .outOfRange := by
  have fitted : ¬ s.hasSpliceUnit = false := by simp [State.hasSpliceUnit, origin, unwind]
  rw [State.takeRoll, if_neg fitted]
  rcases outside with far | zero
  · obtain ⟨n, rfl⟩ := Nat.exists_eq_add_of_le far
    rw [show Nat.succ 1 + n = n + 2 by omega]
    rfl
  · rw [zero]
    split <;> rfl

theorem State.takeRoll_side (origin : s.cfg.origin = true) (unwind : s.cfg.unwind = true) (named : sideOf position = some side)
    (some_ : length ≠ 0) :
    s.takeRoll position rollId length =
      if s.splice.busy side = true then s.refuse .roll .badState
      else if s.splice.sideIn .active = none then
        State.armTest { s with splice := s.splice.setRoll side (announced .active rollId length) }
      else State.tryMatching { s with splice := s.splice.setRoll side (announced .loaded rollId length) } := by
  have fitted : ¬ s.hasSpliceUnit = false := by simp [State.hasSpliceUnit, origin, unwind]
  rw [State.takeRoll, if_neg fitted, named]
  exact if_neg some_

end

/-- A halt leaves the splice as it is outside MATCHING (R192). -/
theorem State.haltLine_keepsSplice {s : State} (notMatching : s.splice.state ≠ .matching) (origin : Byte) :
    (s.haltLine origin).splice = s.splice := by
  by_cases moves : s.line.state = .run ∨ s.line.state = .stopping ∨ s.line.state = .standby
  · rw [(State.haltLine_halted origin moves).2]
    exact (State.halted_splice origin).2.1 notMatching
  · rw [State.haltLine_rests (by cases state : s.line.state <;> simp_all)]

theorem State.latch_keepsSplice {s : State} (notMatching : s.splice.state ≠ .matching) (e : Event) : (s.latch e).splice = s.splice := by
  by_cases halt : e.isHalt = true
  · rw [State.latch_halt halt]
    simpa using State.haltLine_keepsSplice (s := s.flag e) notMatching s.ownIndex
  · rw [State.latch_report (by simpa using halt)]
    rfl

/-! ### Run-out (R186) -/

/-- The state after a run-out, before ROLL_OUT is latched. -/
def State.emptied (s : State) (side : Side) : State :=
  let t := { s with splice := s.splice.setRoll side Roll.none }
  match t.splice.state with
  | .idle | .armed | .inhibited => { t with splice := { t.splice with state := .idle } }
  | .matching => t.leaveMatching .idle
  | .pasting | .cutting => t

theorem State.rollOut_eq (s : State) (side : Side) : s.rollOut side = (s.emptied side).latch .rollOut := rfl

section
variable {s : State} {side : Side}

theorem State.emptied_frame : s.emptied side = { s with splice := (s.emptied side).splice, step1 := (s.emptied side).step1 } := by
  unfold State.emptied
  dsimp only
  split
  case h_4 => rw [State.leaveMatching_eq]
  all_goals rfl

theorem State.emptied_rolls :
    (s.emptied side).splice.roll side = Roll.none ∧ (s.emptied side).splice.roll side.other = s.splice.roll side.other := by
  have set := Splice.setRoll_roll s.splice side Roll.none
  unfold State.emptied
  dsimp only
  split
  case h_4 =>
    rw [State.leaveMatching_eq]
    cases side <;> exact set
  all_goals cases side <;> exact set

theorem State.emptied_rolling (rolling : s.splice.state = .pasting ∨ s.splice.state = .cutting) :
    s.emptied side = { s with splice := s.splice.setRoll side Roll.none } := by
  unfold State.emptied
  dsimp only
  rw [Splice.setRoll_state]
  rcases rolling with state | state <;> rw [state]

theorem State.emptied_idle (notPasting : s.splice.state ≠ .pasting) (notCutting : s.splice.state ≠ .cutting) :
    (s.emptied side).splice.state = .idle := by
  unfold State.emptied
  dsimp only
  rw [Splice.setRoll_state]
  cases state : s.splice.state with
  | pasting => exact absurd state notPasting
  | cutting => exact absurd state notCutting
  | matching => exact congrArg (fun u : State => u.splice.state) (State.leaveMatching_eq _ _)
  | _ => rfl

theorem State.emptied_matching (matching : s.splice.state = .matching) :
    (s.emptied side).splice.vNew = 0 ∧ (s.emptied side).splice.rampTimer = none ∧ (s.emptied side).splice.matchTimer = none ∧
      (s.emptied side).splice.matchTimeout = none := by
  unfold State.emptied
  dsimp only
  rw [Splice.setRoll_state, matching]
  simp only [State.leaveMatching_eq]
  exact ⟨trivial, trivial, trivial, trivial⟩

theorem State.emptied_notMatching : (s.emptied side).splice.state ≠ .matching := by
  by_cases rolling : s.splice.state = .pasting ∨ s.splice.state = .cutting
  · rw [State.emptied_rolling rolling, Splice.setRoll_state]
    rcases rolling with state | state <;> rw [state] <;> nofun
  · rw [State.emptied_idle (fun state => rolling (.inl state)) fun state => rolling (.inr state)]
    nofun

theorem exec_rollRunOut (active : (s.splice.roll side).state = .active) (alone : (s.splice.roll side.other).state ≠ .active)
    (out : (s.splice.roll side).remaining = some 0) : exec .rollRunOut s = .next ((s.emptied side).latch .rollOut) := by
  have found : s.splice.runOut = some side := by
    rw [Splice.runOut, Splice.sideIn_eq active alone]
    exact if_pos out
  show execRollRunOut s = _
  rw [execRollRunOut, found]
  rfl

/-! ### The ROLL that is taken (R184, R187, R188) -/

/-- A roll announced beside an ACTIVE one. -/
theorem State.loadRoll_spec (rollId length : Nat) (other : (s.splice.roll side.other).state = .active)
    (free : s.splice.state = .idle ∨ s.splice.state = .armed ∨ s.splice.state = .inhibited) :
    (State.tryMatching { s with splice := s.splice.setRoll side (announced .loaded rollId length) }).splice.roll side =
        announced .loaded rollId length ∧
      (State.tryMatching { s with splice := s.splice.setRoll side (announced .loaded rollId length) }).splice.state =
        if s.splice.state = .armed ∧ s.line.state = .run then .matching else s.splice.state := by
  obtain ⟨here, there⟩ := Splice.setRoll_roll s.splice side (announced .loaded rollId length)
  have sameState := Splice.setRoll_state s.splice side (announced .loaded rollId length)
  refine ⟨by rw [State.tryMatching_rolls, here], ?_⟩
  rw [State.tryMatching_state (side := side.other)]
  · simp only [Side.other_other, here, sameState]
    simp [announced]
  · rw [sameState]
    rcases free with state | state | state <;> rw [state] <;> nofun
  · rw [sameState]
    rcases free with state | state | state <;> rw [state] <;> nofun
  · exact (congrArg Roll.state there).trans other
  · rw [Side.other_other]
    exact (congrArg Roll.state here).trans_ne nofun

/-- A roll announced where none is ACTIVE. -/
theorem State.startRoll_spec (rollId length : Nat) (other : (s.splice.roll side.other).state ≠ .active) :
    (State.armTest { s with splice := s.splice.setRoll side (announced .active rollId length) }).splice.roll side =
        announced .active rollId length ∧
      (s.splice.state = .idle →
        (s.cfg.spliceAt < min length 2147483648 →
          (State.armTest { s with splice := s.splice.setRoll side (announced .active rollId length) }).splice.state = .idle) ∧
        (min length 2147483648 ≤ s.cfg.spliceAt →
          (State.armTest { s with splice := s.splice.setRoll side (announced .active rollId length) }).splice.state =
            if (s.splice.roll side.other).state = .loaded ∧ s.line.state = .run then .matching else .armed)) ∧
      (s.splice.state ≠ .idle →
        (State.armTest { s with splice := s.splice.setRoll side (announced .active rollId length) }).splice.state = s.splice.state) := by
  let u : State := { s with splice := s.splice.setRoll side (announced .active rollId length) }
  obtain ⟨here, there⟩ := Splice.setRoll_roll s.splice side (announced .active rollId length)
  have sameState : u.splice.state = s.splice.state := Splice.setRoll_state s.splice side (announced .active rollId length)
  have active : (u.splice.roll side).state = .active := congrArg Roll.state here
  have alone : (u.splice.roll side.other).state ≠ .active := (congrArg Roll.state there).trans_ne other
  have remaining : (u.splice.roll side).remaining = some (min length 2147483648) := congrArg Roll.remaining here
  refine ⟨(State.armTest_rolls side).trans here, fun idle => ⟨fun long => ?_, fun short => ?_⟩, fun busy => ?_⟩
  · rw [State.armTest_long active alone remaining long]
    exact sameState.trans idle
  · have atSide (x : Side) : u.armed.splice.roll x = u.splice.roll x := by cases x <;> rfl
    rw [State.armTest_due (sameState.trans idle) active alone remaining short,
      State.tryMatching_state (s := u.armed) (side := side) (nofun : SpliceState.armed ≠ .pasting) (nofun : SpliceState.armed ≠ .cutting)
        (by rw [atSide]; exact active) (by rw [atSide]; exact alone), atSide]
    simp only [show u.splice.roll side.other = s.splice.roll side.other from there]
    simp [State.armed, u]
  · rw [State.armTest_busy (sameState.trans_ne busy)]
    exact sameState

end

/-- Settles O51: the ROLL by its cases, the run-out as ROLL_OUT latched at `State.emptied`, and the arming test. -/
theorem rollsAreAnnouncedRunOutAndArm : Obligations.RollsAreAnnouncedRunOutAndArm := by
  refine ⟨fun s bytes sender targets position rollId length heard => ?_, fun s side active alone => ⟨fun out => ?_,
    fun origin unwind done idle r remaining => ⟨fun long => ?_, fun short => ?_⟩⟩⟩
  · have taken : exec (.roll bytes) s = .next (s.heard.takeRoll position.toNat rollId.toNat length.toNat) := exec_takes heard
    refine ⟨fun unfitted => taken.trans (congrArg _ (State.takeRoll_unfitted (s := s.heard) unfitted)), fun origin unwind =>
      ⟨fun outside => taken.trans (congrArg _ (State.takeRoll_outOfRange (s := s.heard) origin unwind
        (outside.imp_right fun zero => by rw [zero]; rfl))), fun side named some_ => ?_⟩⟩
    have isSide : sideOf position.toNat = some side := by
      rcases named with ⟨zero, rfl⟩ | ⟨one, rfl⟩
      · rw [zero]; rfl
      · rw [one]; rfl
    have lengthSome : length.toNat ≠ 0 := fun zero => some_ (BitVec.eq_of_toNat_eq zero)
    rw [State.takeRoll_side (s := s.heard) origin unwind isSide lengthSome] at taken
    refine ⟨fun busy => ?_, fun free notActive notExpiring => ?_⟩
    · refine taken.trans (congrArg _ (if_pos (show s.splice.busy side = true from ?_)))
      rcases busy with pasting | cutting | active | expiring | ⟨matching, incoming⟩
      · exact Splice.busy_strobes (.inl pasting)
      · exact Splice.busy_strobes (.inr cutting)
      · exact Splice.busy_of_record (.inl active)
      · exact Splice.busy_of_record (.inr expiring)
      · exact Splice.busy_incoming matching incoming
    · replace taken := taken.trans (congrArg _ (if_neg (Splice.not_busy free notActive notExpiring)))
      by_cases other : (s.splice.roll side.other).state = .active
      · have running : s.splice.sideIn .active ≠ none := by
          rw [Splice.sideIn_eq (side := side.other) other (by rwa [Side.other_other])]
          nofun
        replace taken := taken.trans (congrArg _ (if_neg running))
        exact ⟨_, taken, State.tryMatching_frame _, by rw [State.tryMatching_rolls]; exact (Splice.setRoll_roll ..).2,
          fun notOther => absurd other notOther, fun _ => State.loadRoll_spec (s := s.heard) rollId.toNat length.toNat other free⟩
      · have standing : s.splice.sideIn .active = none := Splice.sideIn_none notActive other
        replace taken := taken.trans (congrArg _ (if_pos standing))
        exact ⟨_, taken, State.armTest_frame, by rw [State.armTest_rolls]; exact (Splice.setRoll_roll ..).2,
          fun _ => State.startRoll_spec (s := s.heard) rollId.toNat length.toNat other, fun isOther => absurd isOther other⟩
  · let u := s.emptied side
    have frame : u = { s with splice := u.splice, step1 := u.step1 } := State.emptied_frame
    have splice : (u.latch .rollOut).splice = u.splice := State.latch_keepsSplice State.emptied_notMatching .rollOut
    obtain ⟨gone, kept⟩ := State.emptied_rolls (s := s) (side := side)
    refine ⟨_, exec_rollRunOut active alone out, State.latch_has, by rw [splice]; exact gone, by rw [splice]; exact kept,
      fun rolling => ?_, fun notPasting notCutting => by rw [splice]; exact State.emptied_idle notPasting notCutting,
      fun matching => by rw [splice]; exact State.emptied_matching matching, fun running => ?_, ?_, ?_, ?_, ?_, ?_⟩
    · rw [splice, show u = _ from State.emptied_rolling rolling]
      cases side <;> exact ⟨rfl, rfl, rfl, rfl⟩
    · have halted := ((latch_haltsTheLine u (e := .rollOut) rfl).1 (by rw [frame]; exact running)).1
      rwa [show u.line.vCmd = s.line.vCmd by rw [frame]] at halted
    · exact (by simp : (u.latch .rollOut).line.vCmd = u.line.vCmd).trans (by rw [frame])
    · exact (by simp : (u.latch .rollOut).tracker.position = u.tracker.position).trans (by rw [frame])
    · exact State.sameBlade.heldRule (u := u) (by rw [frame]; exact ⟨rfl, rfl, rfl, rfl, rfl, rfl, rfl⟩) (by rw [frame])
        State.latch_heldRule
    · exact (by simp : (u.latch .rollOut).store = u.store).trans (by rw [frame])
    · exact (by simp : (u.latch .rollOut).dose = u.dose).trans (by rw [frame])
  · have tested : exec .spliceArming s = .next s.armTest := congrArg Host.Outcome.next (if_pos (by simp [State.hasSpliceUnit, State.ready,
      origin, unwind, done]))
    rw [tested, State.armTest_long active alone remaining long]
  · have tested : exec .spliceArming s = .next s.armTest := congrArg Host.Outcome.next (if_pos (by simp [State.hasSpliceUnit, State.ready,
      origin, unwind, done]))
    have loaded : s.armed.splice.incomingLoaded = decide ((s.splice.roll side.other).state = .loaded) := by
      have eq := Splice.incomingLoaded_eq (u := s.armed.splice) (side := side) nofun nofun
      cases side <;> exact eq active alone
    refine ⟨s.armTest, tested, State.armTest_frame, State.armTest_rolls .a, State.armTest_rolls .b, fun isLoaded run => ?_,
      fun stays => ?_⟩
    · rw [State.armTest_due idle active alone remaining short]
      exact State.tryMatching_matches (s := s.armed) rfl (by rw [loaded]; exact decide_eq_true isLoaded) run
    · rw [State.armTest_due idle active alone remaining short, State.tryMatching_stays (s := s.armed) fun ⟨_, isLoaded, run⟩ => ?_]
      · exact ⟨rfl, rfl⟩
      · rw [loaded, decide_eq_true_eq] at isLoaded
        exact stays.elim (absurd isLoaded) (absurd run)

end Sys2Proof.Machine
end

section
/-! SUPPORT. A feature offered for insertion, the update of s and a placement (R62 to R70, R75 to R77). -/

namespace Sys2Proof.Machine

/-! ### The tests of an offered feature (R76) -/

section
variable {s : State} {p : Panel} {f : Feature} {entry : Pos} {n : Nat}

theorem State.any_isPanel : (s.map.features.any fun g => g.isPanel n) = true ↔ n ∈ panelNumbers s.map.features := by
  rw [mem_panelNumbers, List.any_eq_true]

theorem State.hasRoomFor_panel :
    s.hasRoomFor (panelFeature p entry) = true ↔ s.map.features.length < 32 ∧ p.number ∉ panelNumbers s.map.features := by
  rw [← State.any_isPanel, Bool.not_eq_true, ← Bool.not_eq_true', ← decide_eq_true_iff (p := s.map.features.length < 32),
    ← Bool.and_eq_true]
  exact Iff.rfl

theorem State.hasRoomFor_splice : s.hasRoomFor (spliceFeature n entry) = decide (s.map.features.length < 32) := Bool.and_true _

theorem State.hasRoomFor_full (full : 32 ≤ s.map.features.length) : s.hasRoomFor f = false := by
  rw [State.hasRoomFor, decide_eq_false (Nat.not_lt.2 full), Bool.false_and]

theorem State.insertOrDiscard_full (full : 32 ≤ s.map.features.length) : s.insertOrDiscard f = s.latch .mapFull := if_pos full

theorem State.insertOrDiscard_held (room : s.map.features.length < 32) (held : p.number ∈ panelNumbers s.map.features) :
    s.insertOrDiscard (panelFeature p entry) = s := by
  rw [State.insertOrDiscard, if_neg (Nat.not_le.2 room), if_neg fun fits => (State.hasRoomFor_panel.1 fits).2 held]

/-- The state with a feature inserted into the list, before what its insertion brings with it. -/
def State.inserted (s : State) (f : Feature) : State := { s with map := { s.map with features := insertFeature f s.map.features } }

theorem State.insertOrDiscard_panel (room : s.map.features.length < 32) (new : p.number ∉ panelNumbers s.map.features) :
    s.insertOrDiscard (panelFeature p entry) = ((s.inserted (panelFeature p entry)).askForPanel p).settleNext := by
  rw [State.insertOrDiscard, if_neg (Nat.not_le.2 room), if_pos (State.hasRoomFor_panel.2 ⟨room, new⟩)]
  rfl

theorem State.insertOrDiscard_splice (room : s.map.features.length < 32) :
    s.insertOrDiscard (spliceFeature n entry) =
      { s.inserted (spliceFeature n entry) with tracker := { s.tracker with guard := some entry } } := by
  rw [State.insertOrDiscard, if_neg (Nat.not_le.2 room), if_pos (by rw [State.hasRoomFor_splice]; exact decide_eq_true room)]
  rfl

theorem State.requestLookup_frame (l : Lookup) : s.requestLookup l = { s with store := (s.requestLookup l).store } := rfl

theorem State.askForPanel_frame : s.askForPanel p = { s with store := (s.askForPanel p).store } := by
  unfold State.askForPanel
  dsimp only
  split <;> split <;> rfl

theorem State.settleNext_frame : s.settleNext = { s with store := s.settleNext.store, seq := { s.seq with next := s.settleNext.seq.next } } := by
  unfold State.settleNext
  split
  · split
    · rfl
    · split
      · rfl
      · split
        · rfl
        · dsimp only
          split <;> rfl
  · rfl

/-- An inserted PANEL changes the list, the lookups and the next context. -/
theorem State.insertOrDiscard_panel_frame (room : s.map.features.length < 32) (new : p.number ∉ panelNumbers s.map.features) :
    s.insertOrDiscard (panelFeature p entry) =
      { s with
        map := { s.map with features := insertFeature (panelFeature p entry) s.map.features }
        store := (s.insertOrDiscard (panelFeature p entry)).store
        seq := { s.seq with next := (s.insertOrDiscard (panelFeature p entry)).seq.next } } := by
  rw [State.insertOrDiscard_panel room new, State.settleNext_frame, State.askForPanel_frame]
  rfl

/-- With room, a PANEL's offer touches the list, the lookups and the next context alone. -/
theorem State.insertOrDiscard_room_frame (room : s.map.features.length < 32) :
    s.insertOrDiscard (panelFeature p entry) =
      { s with
        map := (s.insertOrDiscard (panelFeature p entry)).map
        store := (s.insertOrDiscard (panelFeature p entry)).store
        seq := (s.insertOrDiscard (panelFeature p entry)).seq } := by
  by_cases held : p.number ∈ panelNumbers s.map.features
  · rw [State.insertOrDiscard_held room held]
  · rw [State.insertOrDiscard_panel_frame room held]

theorem State.offerFeature_splice (room : s.map.features.length < 32) :
    s.offerFeature (spliceFeature n entry) =
      { s with
        map := { s.map with features := insertFeature (spliceFeature n entry) s.map.features }
        tracker := { s.tracker with guard := some entry } } := by
  rw [State.offerFeature_of_room (by rw [State.hasRoomFor_splice]; exact decide_eq_true room), State.insertOrDiscard_splice room]
  rfl

theorem State.offerFeature_full (full : 32 ≤ s.map.features.length) :
    s.offerFeature f = { s.latch .mapFull with tracker := { (s.latch .mapFull).tracker with ref := none } } := by
  rw [State.offerFeature, State.hasRoomFor_full full, State.insertOrDiscard_full full]
  rfl

theorem State.offerFeature_held (room : s.map.features.length < 32) (held : p.number ∈ panelNumbers s.map.features) :
    s.offerFeature (panelFeature p entry) = { s with tracker := { s.tracker with ref := none } } := by
  have discarded : s.hasRoomFor (panelFeature p entry) = false :=
    Bool.eq_false_iff.2 fun fits => (State.hasRoomFor_panel.1 fits).2 held
  rw [State.offerFeature, discarded, State.insertOrDiscard_held room held]
  rfl

theorem State.offerFeature_panel (room : s.map.features.length < 32) (new : p.number ∉ panelNumbers s.map.features) :
    s.offerFeature (panelFeature p entry) = s.insertOrDiscard (panelFeature p entry) :=
  State.offerFeature_of_room (State.hasRoomFor_panel.2 ⟨room, new⟩)

end

/-! ### A latched event keeps the list's places -/

theorem State.latch_entries (s : State) (e : Event) :
    (s.latch e).map.features.map (fun f => f.entry) = s.map.features.map fun f => f.entry := by
  obtain ⟨enters, stays⟩ := State.latch_heldRule (s := s) (e := e)
  by_cases held : (s.latch e).line.state = .held ∧ s.line.state ≠ .held ∧ (s.seq.state = .leadIn ∨ s.seq.state = .folding)
  · exact (enters held).2.2.1
  · rw [(stays (by tauto)).2.1]

theorem State.latch_length (s : State) (e : Event) : (s.latch e).map.features.length = s.map.features.length := by
  simpa using congrArg List.length (s.latch_entries e)

theorem State.latch_planKept (s : State) (e : Event) : s.planKept (s.latch e) := State.latch_heldRule.planKept

/-! ### The update of s (R70) -/

section
variable {s : State} {p : Pos}

theorem State.updateStretch_none (held : s.tracker.stretchInputs p = none) : s.updateStretch p = s := by
  rw [State.updateStretch, held]

theorem State.updateStretch_some {m l : Nat} (inputs : s.tracker.stretchInputs p = some (m, l)) :
    s.updateStretch p =
      { s with
        tracker := { s.tracker with stretch := clamp 61440 69632 (stretchValue m l) }
        events := if stretchValue m l < 61440 ∨ 69632 < stretchValue m l then s.events.set .stretchClamp else s.events } := by
  rw [State.updateStretch, inputs]
  dsimp only
  split <;> rfl

theorem State.updateStretch_frame :
    s.updateStretch p =
      { s with
        tracker := { s.tracker with stretch := (s.updateStretch p).tracker.stretch }
        events := (s.updateStretch p).events } := by
  cases inputs : s.tracker.stretchInputs p with
  | none => rw [State.updateStretch_none inputs]
  | some ml => rw [State.updateStretch_some inputs]

/-- The update of s latches no event but STRETCH_CLAMP. -/
theorem State.updateStretch_has {e : Event} (other : e ≠ .stretchClamp) : (s.updateStretch p).events.has e = s.events.has e := by
  cases inputs : s.tracker.stretchInputs p with
  | none => rw [State.updateStretch_none inputs]
  | some ml =>
    rw [State.updateStretch_some inputs]
    dsimp only
    split
    · exact EventLatch.has_set_other other
    · rfl

end

/-! ### A placement (R62 to R69) -/

section
variable {s : State} {p : Panel} {entry : Pos} {claimed : Bool}

/-- The reference a placed PANEL leaves (R68). -/
def Panel.asRef (p : Panel) (entry : Pos) (claimed : Bool) : StretchRef :=
  { mark := entry, number := p.number, nominal := p.nominal, claimed := claimed, rejected := p.cause.isSome }

/-- A placement is the PANEL's offer, with s and the stretch reference set. -/
theorem State.place_frame :
    s.place p entry claimed =
      { s.insertOrDiscard (panelFeature p entry) with
        events := (s.place p entry claimed).events
        tracker :=
          { (s.insertOrDiscard (panelFeature p entry)).tracker with
            stretch := (s.place p entry claimed).tracker.stretch
            ref := if s.hasRoomFor (panelFeature p entry) then some (p.asRef entry claimed) else none } } := by
  cases claimed with
  | false => rfl
  | true =>
    unfold State.place
    simp only [if_true]
    rw [State.updateStretch_frame]
    rfl

theorem State.place_has {e : Event} (other : e ≠ .stretchClamp) :
    (s.place p entry claimed).events.has e = (s.insertOrDiscard (panelFeature p entry)).events.has e := by
  cases claimed with
  | false => rfl
  | true => exact State.updateStretch_has other

theorem State.place_synthesized :
    (s.place p entry false).events = (s.insertOrDiscard (panelFeature p entry)).events ∧
      (s.place p entry false).tracker.stretch = s.tracker.stretch := ⟨rfl, by simp [State.place]⟩

/-- What a placement leaves with room in the list. -/
theorem State.place_room (room : s.map.features.length < 32) :
    s.place p entry claimed =
      { s with
        map := (s.place p entry claimed).map
        store := (s.place p entry claimed).store
        seq := (s.place p entry claimed).seq
        events := (s.place p entry claimed).events
        tracker :=
          { s.tracker with
            stretch := (s.place p entry claimed).tracker.stretch
            ref := (s.place p entry claimed).tracker.ref } } := by
  have frame := State.place_frame (s := s) (p := p) (entry := entry) (claimed := claimed)
  rw [State.insertOrDiscard_room_frame room] at frame
  rw [frame]

theorem State.place_held (room : s.map.features.length < 32) (held : p.number ∈ panelNumbers s.map.features) :
    (s.place p entry claimed).map = s.map ∧ (s.place p entry claimed).store = s.store ∧ (s.place p entry claimed).seq = s.seq ∧
      (s.place p entry claimed).tracker.ref = none ∧
      ∀ e : Event, e ≠ .stretchClamp → (s.place p entry claimed).events.has e = s.events.has e := by
  have discarded : s.hasRoomFor (panelFeature p entry) = false :=
    Bool.eq_false_iff.2 fun fits => (State.hasRoomFor_panel.1 fits).2 held
  refine ⟨?_, ?_, ?_, ?_, fun e other => ?_⟩
  · rw [State.place_frame, State.insertOrDiscard_held room held]
  · rw [State.place_frame, State.insertOrDiscard_held room held]
  · rw [State.place_frame, State.insertOrDiscard_held room held]
  · rw [State.place_frame, discarded]
    rfl
  · rw [State.place_has other, State.insertOrDiscard_held room held]

theorem State.place_new (room : s.map.features.length < 32) (new : p.number ∉ panelNumbers s.map.features) :
    (s.place p entry claimed).map.features = insertFeature (panelFeature p entry) s.map.features ∧
      (s.place p entry claimed).tracker.ref = some (p.asRef entry claimed) ∧
      (s.place p entry claimed).map = (s.offerFeature (panelFeature p entry)).map ∧
      (s.place p entry claimed).store = (s.offerFeature (panelFeature p entry)).store ∧
      (s.place p entry claimed).seq = (s.offerFeature (panelFeature p entry)).seq := by
  have fits := (State.hasRoomFor_panel (entry := entry)).2 ⟨room, new⟩
  rw [State.offerFeature_panel room new]
  refine ⟨?_, ?_, ?_, ?_, ?_⟩
  · rw [State.place_frame, State.insertOrDiscard_panel_frame room new]
  · rw [State.place_frame, fits]
    rfl
  all_goals rw [State.place_frame]

/-- What a placement leaves with a full list. -/
theorem State.place_full (full : 32 ≤ s.map.features.length) :
    s.place p entry claimed =
      { s.latch .mapFull with
        events := (s.place p entry claimed).events
        tracker := { (s.latch .mapFull).tracker with stretch := (s.place p entry claimed).tracker.stretch, ref := none } } ∧
      (s.place p entry claimed).events.has .mapFull = true := by
  have discards := State.insertOrDiscard_full (f := panelFeature p entry) full
  constructor
  · have frame := State.place_frame (s := s) (p := p) (entry := entry) (claimed := claimed)
    rw [discards, State.hasRoomFor_full full] at frame
    exact frame
  · rw [State.place_has (by nofun), discards]
    exact State.latch_has

/-- What an insertion brings with it is read off the list, the lookups and the next context. -/
theorem State.settlesPanel.congr {t u : State} (h : s.settlesPanel t p entry) (map : u.map = t.map) (store : u.store = t.store)
    (seq : u.seq = t.seq) : s.settlesPanel u p entry := by
  simpa only [State.settlesPanel, State.nextPanelNumber, map, store, seq] using h

end

end Sys2Proof.Machine
end

section
/-! SUPPORT. The marks and the PANEL handoffs and how they are paired (R59 to R70, R89 to R91). -/

namespace Sys2Proof.Machine

/-! ### The placement of a handoff (R62 to R64) -/

section
variable {s : State} {h : PendingHandoff} {entry : Pos} {claimed : Bool}

/-- The PANEL a pending handoff becomes. -/
def State.panelOf (s : State) (h : PendingHandoff) : Panel := s.newPanel h.number h.pattern (some h.nominal) h.cause false

/-- What an inserted new PANEL brings with it at its placement. -/
theorem State.place_settlesPanel {number pattern : Nat} {nominal : Option Nat} {cause : Option RejectCause} {planDrawn : Bool}
    (room : s.map.features.length < 32) (new : number ∉ panelNumbers s.map.features) :
    s.settlesPanel (s.place (s.newPanel number pattern nominal cause planDrawn) entry claimed)
      (s.newPanel number pattern nominal cause planDrawn) entry := by
  obtain ⟨-, -, map, store, seq⟩ :=
    State.place_new (p := s.newPanel number pattern nominal cause planDrawn) (entry := entry) (claimed := claimed) room new
  exact (s.offerFeature_settlesPanel number pattern nominal cause planDrawn entry room new).congr map store seq

theorem State.place_panelOf (room : s.map.features.length < 32) (new : h.number ∉ panelNumbers s.map.features) :
    ∃ p : Panel,
      (s.place (s.panelOf h) entry claimed).map.features =
        insertFeature { body := .panel p, entry := entry, overdue := false, reached := false } s.map.features ∧
      p.number = h.number ∧ p.pattern = h.pattern ∧ p.nominal = some h.nominal ∧ p.cause = h.cause ∧ p.planDrawn = false ∧
      s.settlesPanel (s.place (s.panelOf h) entry claimed) p entry ∧
      (s.place (s.panelOf h) entry claimed).tracker.ref =
        some { mark := entry, number := h.number, nominal := some h.nominal, claimed := claimed, rejected := h.cause.isSome } := by
  obtain ⟨features, ref, -⟩ := State.place_new (p := s.panelOf h) (entry := entry) (claimed := claimed) room new
  exact ⟨s.panelOf h, features, rfl, rfl, rfl, rfl, rfl, State.place_settlesPanel room new, ref⟩

theorem State.place_planKept (p : Panel) : s.planKept (s.place p entry claimed) := by
  rcases Nat.lt_or_ge s.map.features.length 32 with room | full
  · rw [State.place_room room]
    exact .inl rfl
  · rw [(State.place_full full).1]
    exact s.latch_planKept .mapFull

/-- What a placement at a full list leaves of the list, the store and the reference. -/
theorem State.place_full_keeps (p : Panel) (full : 32 ≤ s.map.features.length) :
    (s.place p entry claimed).events.has .mapFull = true ∧ (s.place p entry claimed).tracker.ref = none ∧
      (s.place p entry claimed).store = s.store ∧
      (s.place p entry claimed).map.features.map (fun f => f.entry) = s.map.features.map fun f => f.entry := by
  obtain ⟨frame, latched⟩ := State.place_full (p := p) (entry := entry) (claimed := claimed) full
  rw [frame]
  exact ⟨latched, rfl, by simp, s.latch_entries .mapFull⟩

/-- What a claim leaves besides the list. -/
theorem State.claim_eq (s : State) (h : PendingHandoff) (mark : Pos) :
    s.claim h mark =
      State.place { s with tracker := { s.tracker with misses := 0 } }
        (State.panelOf { s with tracker := { s.tracker with misses := 0 } } h) mark true := rfl

theorem State.claim_misses (s : State) (h : PendingHandoff) (mark : Pos) : (s.claim h mark).tracker.misses = 0 := by
  rw [State.claim_eq]
  simp

theorem State.claim_room (room : s.map.features.length < 32) (mark : Pos) :
    (s.claim h mark).line = s.line ∧ (s.claim h mark).link = s.link ∧ (s.claim h mark).plan = s.plan ∧
      (s.claim h mark).steam = s.steam ∧ (s.claim h mark).splice = s.splice := by
  rw [State.claim_eq, State.place_room (s := { s with tracker := { s.tracker with misses := 0 } }) room]
  exact ⟨rfl, rfl, rfl, rfl, rfl⟩

end

/-! ### Marks at another station (R59, R62, R66) -/

theorem State.takesMark_iff {s : State} (done : s.boot.phase = .done) (sensor : s.cfg.markSensor = true) :
    s.takesMark = decide (s.tracker.lastMark ≠ some s.tracker.position) := by
  simp [State.takesMark, State.ready, done, sensor]

theorem exec_markSensed_other {s : State} (done : s.boot.phase = .done) (sensor : s.cfg.markSensor = true)
    (away : s.cfg.origin = false) (moved : s.tracker.lastMark ≠ some s.tracker.position) :
    exec .markSensed s = .next (State.pairMark { s with tracker := { s.tracker with lastMark := some s.tracker.position } }) := by
  have takes : s.takesMark = true := by rw [State.takesMark_iff done sensor]; exact decide_eq_true moved
  show execMarkSensed s = _
  rw [execMarkSensed, if_pos takes, if_neg (by simp [away])]

/-- Settles O33: the claim is a placement at the mark with the misses at 0. -/
theorem marksClaimTheOldestHandoff : Obligations.MarksClaimTheOldestHandoff := by
  intro s done sensor away
  refine ⟨fun still => ?_, fun moved => ?_⟩
  · have ignores : ¬ s.takesMark = true := by rw [State.takesMark_iff done sensor]; simpa using still
    exact congrArg Host.Outcome.next (if_neg ignores)
  · have taken := exec_markSensed_other done sensor away moved
    let heard : State := { s with tracker := { s.tracker with lastMark := some s.tracker.position } }
    refine ⟨fun h rest waiting => ?_, fun none few => ?_, fun m rest none marks many => ?_⟩
    · let u : State := { heard with tracker := { heard.tracker with handoffs := rest } }
      let v : State := { u with tracker := { u.tracker with misses := 0 } }
      have pairs : heard.pairMark = u.claim h s.tracker.position := by
        show State.pairMark { s with tracker := { s.tracker with lastMark := some s.tracker.position } } = _
        rw [State.pairMark]
        dsimp only
        rw [waiting]
      refine ⟨u.claim h s.tracker.position, taken.trans (congrArg _ pairs), ?_⟩
      refine ⟨by simp [u], State.claim_misses u h _, by simp [u, heard], by simp [u, heard], by simp [u, heard], by simp [u, heard],
        fun room => ?_, fun full => ?_⟩
      · obtain ⟨line, link, plan, steam, splice⟩ := State.claim_room (s := u) (h := h) room s.tracker.position
        exact ⟨line, link, plan, steam, splice, State.place_panelOf (s := v) room, State.place_held (s := v) (p := v.panelOf h) room⟩
      · obtain ⟨latched, ref, store, entries⟩ := State.place_full_keeps (s := v) (entry := s.tracker.position) (claimed := true) (v.panelOf h) full
        exact ⟨latched, ref, State.place_planKept (s := v) (v.panelOf h), store, entries⟩
    · rw [taken, State.pairMark]
      dsimp only
      rw [none]
      exact congrArg Host.Outcome.next (by rw [if_neg (Nat.not_le.2 few)])
    · rw [taken, State.pairMark]
      dsimp only
      rw [none]
      refine congrArg Host.Outcome.next ?_
      rw [if_pos many, State.discardMark]
      dsimp only
      rw [marks]
      rfl

end Sys2Proof.Machine
end

section
/-! SUPPORT. The marks of the origin (R60, R89 to R91). -/

namespace Sys2Proof.Machine

section
variable {s : State}

/-- The state in which a mark of the origin creates its panel: the mark and its interval are kept (R60). -/
def State.marked (s : State) : State :=
  { s with tracker := { s.tracker with lastMark := some s.tracker.position, lastInterval := s.tracker.intervalAt } }

/-- The created panel is a new record, blank when the plan draws the id 0. -/
theorem State.createdPanel_eq (s : State) :
    s.createdPanel =
      s.newPanel s.plan.counter s.plan.drawnPattern
        (if s.plan.drawnPattern = 0 then some (s.tracker.lastInterval.getD s.cfg.lSpan) else none)
        (if s.plan.drawnPattern = 0 then some .blank else none) (decide (s.plan.drawnPattern ≠ 0)) := by
  unfold State.createdPanel
  split
  · next zero => simp [zero]
  · next drawn => simp [drawn]

theorem State.createdPanel_number : s.createdPanel.number = s.plan.counter := by rw [State.createdPanel_eq]; rfl

theorem State.createdPanel_drawn {e : PlanEntry} {rest : List PlanEntry} (entries : s.plan.entries = e :: rest) (drawn : e.pattern ≠ 0) :
    s.createdPanel.pattern = e.pattern ∧ s.createdPanel.planDrawn = true ∧ s.createdPanel.cause = none ∧
      s.createdPanel.nominal = none := by
  have draws : s.plan.drawnPattern = e.pattern := by rw [PlanQueue.drawnPattern, entries]
  rw [State.createdPanel_eq, draws]
  exact ⟨rfl, decide_eq_true drawn, if_neg drawn, if_neg drawn⟩

theorem State.createdPanel_blank (blank : s.plan.entries = [] ∨ ∃ e rest, s.plan.entries = e :: rest ∧ e.pattern = 0) :
    s.createdPanel.pattern = 0 ∧ s.createdPanel.planDrawn = false ∧ s.createdPanel.cause = some .blank ∧
      s.createdPanel.nominal = some (s.tracker.lastInterval.getD s.cfg.lSpan) := by
  have draws : s.plan.drawnPattern = 0 := by
    rcases blank with empty | ⟨e, rest, entries, zero⟩
    · rw [PlanQueue.drawnPattern, empty]
    · rw [PlanQueue.drawnPattern, entries]
      exact zero
  rw [State.createdPanel_eq, draws]
  exact ⟨rfl, rfl, rfl, rfl⟩

theorem PlanQueue.entriesAfter_cons {q : PlanQueue} {e : PlanEntry} {rest : List PlanEntry} (entries : q.entries = e :: rest) :
    q.entriesAfter = if e.count ≤ 1 then rest else { e with count := e.count - 1 } :: rest := by
  rw [PlanQueue.entriesAfter, entries]

/-- The state in which the created panel is placed: it is the plan's last created one already. -/
def State.created (s : State) : State :=
  { s.marked with
    plan := s.plan.afterPanel s.marked.createdPanel (s.hasRoomFor (panelFeature s.marked.createdPanel s.tracker.position)) }

theorem exec_markSensed_origin (done : s.boot.phase = .done) (sensor : s.cfg.markSensor = true) (origin : s.cfg.origin = true)
    (moved : s.tracker.lastMark ≠ some s.tracker.position) :
    exec .markSensed s = .next (s.created.place s.marked.createdPanel s.tracker.position true) := by
  have takes : s.takesMark = true := by rw [State.takesMark_iff done sensor]; exact decide_eq_true moved
  show execMarkSensed s = _
  rw [execMarkSensed, if_pos takes, if_pos origin]
  rfl

/-- The last created panel after the mark, its inserted flag read off the list before it. -/
theorem State.created_lastCreated (s : State) :
    s.created.plan.lastCreated =
      some
        { number := s.marked.createdPanel.number, pattern := s.marked.createdPanel.pattern
          planDrawn := s.marked.createdPanel.planDrawn, cause := s.marked.createdPanel.cause
          inserted := s.hasRoomFor (panelFeature s.marked.createdPanel s.tracker.position) } := rfl

theorem State.planKept.lastCreated {s t : State} (kept : s.planKept t) :
    t.plan.lastCreated.map (fun c => (c.number, c.pattern, c.planDrawn, c.inserted)) =
      s.plan.lastCreated.map fun c => (c.number, c.pattern, c.planDrawn, c.inserted) := by
  rcases kept with same | ⟨-, c, k, last, -, plan⟩
  · rw [same]
  · rw [plan, last]
    rfl

/-- What the inserted created panel brings with it. -/
theorem State.created_settlesPanel (room : s.map.features.length < 32) (new : s.plan.counter ∉ panelNumbers s.map.features) :
    s.settlesPanel (s.created.place s.marked.createdPanel s.tracker.position true) s.marked.createdPanel s.tracker.position := by
  have settles := State.place_settlesPanel (s := s.created) (entry := s.tracker.position) (claimed := true)
    (number := s.plan.counter) (pattern := s.plan.drawnPattern)
    (nominal := if s.plan.drawnPattern = 0 then some (s.marked.tracker.lastInterval.getD s.cfg.lSpan) else none)
    (cause := if s.plan.drawnPattern = 0 then some .blank else none) (planDrawn := decide (s.plan.drawnPattern ≠ 0)) room new
  have created : s.marked.createdPanel =
      s.created.newPanel s.plan.counter s.plan.drawnPattern
        (if s.plan.drawnPattern = 0 then some (s.marked.tracker.lastInterval.getD s.cfg.lSpan) else none)
        (if s.plan.drawnPattern = 0 then some .blank else none) (decide (s.plan.drawnPattern ≠ 0)) :=
    State.createdPanel_eq s.marked
  rw [← created] at settles
  exact settles

end

/-- Settles O32: the mark is a placement of the created panel in a state whose plan has taken it already. -/
theorem originMarksCreatePanels : Obligations.OriginMarksCreatePanels := by
  intro s done sensor origin moved
  let p := s.marked.createdPanel
  have number : p.number = s.plan.counter := State.createdPanel_number (s := s.marked)
  refine ⟨_, p, exec_markSensed_origin done sensor origin moved, number, ?_, by simp [State.created, State.marked], fun q last => ?_,
    fun none => ?_, fun e rest entries drawn => State.createdPanel_drawn (s := s.marked) entries drawn, fun blank => ?_,
    fun e rest entries more => ?_, fun e rest entries one => ?_, fun empty => ?_, by simp [State.created, State.marked],
    by simp [State.created, State.marked], by simp [State.created, State.marked], by simp [State.created, State.marked],
    by simp [State.created, State.marked], fun room => ?_, fun full => ?_⟩
  · simp [State.created, PlanQueue.afterPanel, nextNumber]
  · simp [State.created, State.marked, Tracker.intervalAt, last]
  · simp [State.created, State.marked, Tracker.intervalAt, none]
  · have interval : (s.created.place p s.tracker.position true).tracker.lastInterval = s.marked.tracker.lastInterval := by
      simp [State.created, State.marked]
    rw [interval]
    exact State.createdPanel_blank (s := s.marked) blank
  · simp [State.created, PlanQueue.afterPanel, PlanQueue.entriesAfter_cons entries, Nat.not_le.2 more]
  · simp [State.created, PlanQueue.afterPanel, PlanQueue.entriesAfter_cons entries, one]
  · simp [State.created, PlanQueue.afterPanel, PlanQueue.entriesAfter, empty]
  · have placed := State.place_room (s := s.created) (p := p) (entry := s.tracker.position) (claimed := true) room
    have fits : s.hasRoomFor (panelFeature p s.tracker.position) = decide (s.plan.counter ∉ panelNumbers s.map.features) := by
      rw [Bool.eq_iff_iff, State.hasRoomFor_panel, number, decide_eq_true_eq]
      exact and_iff_right room
    refine ⟨?_, ?_, ?_, ?_, ?_, fun new => ?_, fun held => ?_⟩
    · have plan : (s.created.place p s.tracker.position true).plan = s.created.plan :=
        (congrArg State.plan placed :)
      rw [plan, State.created_lastCreated, fits]
    · exact (congrArg State.line placed :)
    · exact (congrArg State.link placed :)
    · exact (congrArg State.steam placed :)
    · exact (congrArg State.splice placed :)
    · obtain ⟨features, ref, -⟩ :=
        State.place_new (s := s.created) (p := p) (entry := s.tracker.position) (claimed := true) room (number ▸ new)
      exact ⟨features, State.created_settlesPanel room new, ref⟩
    · exact State.place_held (s := s.created) (p := p) room (number ▸ held)
  · obtain ⟨latched, ref, store, entries⟩ :=
      State.place_full_keeps (s := s.created) (entry := s.tracker.position) (claimed := true) p full
    obtain ⟨frame, -⟩ := State.place_full (s := s.created) (p := p) (entry := s.tracker.position) (claimed := true) full
    refine ⟨latched, ref, store, entries, ?_, fun running => ?_⟩
    · refine (State.place_planKept (s := s.created) p).lastCreated.trans ?_
      rw [State.created_lastCreated, State.hasRoomFor_full full]
      rfl
    · have line : (s.created.place p s.tracker.position true).line = (s.created.latch .mapFull).line :=
        (congrArg State.line frame :)
      rw [line]
      exact ((latch_haltsTheLine s.created rfl).1 running).1

end Sys2Proof.Machine
end

section
/-! SUPPORT. What a latched event leaves of the list, the plan and the stretch reference; the claim windows (R64 to R67). -/

namespace Sys2Proof.Machine

/-! ### A latched event (R69, R152) -/

theorem State.planKept.trans {s t u : State} (kept : s.planKept t) (cfg : t.cfg = s.cfg) (again : t.planKept u) : s.planKept u := by
  rcases kept with same | ⟨origin, c, k, last, fresh, plan⟩
  · unfold State.planKept
    rw [← same, ← cfg]
    exact again
  · rcases again with same | ⟨-, c', k', last', fresh', -⟩
    · exact .inr ⟨origin, c, k, last, fresh, same.trans plan⟩
    · rw [plan] at last'
      obtain rfl := Option.some.inj last'
      exact nomatch fresh'

/-- A stretch reference but for its rejected flag. -/
def StretchRef.place (r : StretchRef) : Pos × Nat × Option Nat × Bool := (r.mark, r.number, r.nominal, r.claimed)

theorem rejectRef_place (ref : Option StretchRef) (n : Nat) : (rejectRef ref n).map StretchRef.place = ref.map StretchRef.place := by
  cases ref with
  | none => rfl
  | some r =>
    simp only [rejectRef, Option.map_some]
    split <;> rfl

section
variable (s : State) (e : Event)

theorem State.heldAbort_ref : s.heldAbort.tracker.ref.map StretchRef.place = s.tracker.ref.map StretchRef.place := by
  by_cases playing : s.seq.state = .leadIn ∨ s.seq.state = .folding
  · rw [State.heldAbort_halted playing]
    cases current : s.seq.current with
    | none => simp only [State.abandonPanel, current]
    | some d =>
      obtain ⟨-, -, -, -, listed, gone, -⟩ := s.abandonPanel_givesUpPanel d .halted current
      cases found : s.panel? d.panel with
      | none => rw [(gone found).2.1]
      | some p =>
        rw [(listed p found).2]
        split
        · exact rejectRef_place s.tracker.ref d.panel
        · rfl
  · rw [State.heldAbort_idle playing]

theorem State.latch_ref : (s.latch e).tracker.ref.map StretchRef.place = s.tracker.ref.map StretchRef.place := by
  by_cases halt : e.isHalt = true
  · have same : (s.latch e).tracker = ((s.flag e).haltLine s.ownIndex).tracker := by simp [State.latch_halt halt]
    rw [same]
    by_cases moves : s.line.state = .run ∨ s.line.state = .stopping ∨ s.line.state = .standby
    · rw [State.haltLine_moves (s := s.flag e) moves]
      have kept : ((s.flag e).halted s.ownIndex).tracker = s.tracker := by rw [State.halted_frame]; rfl
      split
      · rw [kept]
      · rw [State.heldAbort_ref, kept]
    · rw [State.haltLine_rests (s := s.flag e) (by cases state : s.line.state <;> simp_all [State.flag])]
      rfl
  · rw [State.latch_report (by simpa using halt)]
    rfl

/-- A latched event clears no other. -/
theorem State.latch_keeps {a : Event} (latched : s.events.has a = true) : (s.latch e).events.has a = true := by
  have flagged : (s.flag e).events.has a = true := by rw [State.flag_events, EventLatch.has_set, latched, Bool.true_or]
  by_cases halt : e.isHalt = true
  · have same : (s.latch e).events = ((s.flag e).haltLine s.ownIndex).events := by simp [State.latch_halt halt]
    rw [same]
    rcases State.haltLine_events (s := s.flag e) s.ownIndex with stays | late
    · rw [stays]
      exact flagged
    · rw [late, EventLatch.has_set, flagged, Bool.true_or]
  · rw [State.latch_report (by simpa using halt)]
    exact flagged

theorem State.latch_panel? {n : Nat} {p : Panel} (found : s.panel? n = some p) :
    (s.latch e).panel? n = some p ∨ p.cause = none ∧ (s.latch e).panel? n = some { p with cause := some .halted } := by
  obtain ⟨enters, stays⟩ := State.latch_heldRule (s := s) (e := e)
  have ofMap (map : (s.latch e).map = s.map) : (s.latch e).panel? n = some p := by
    rw [State.panel?, map]
    exact found
  by_cases held : (s.latch e).line.state = .held ∧ s.line.state ≠ .held ∧ (s.seq.state = .leadIn ∨ s.seq.state = .folding)
  · obtain ⟨-, -, -, -, alone, condemned⟩ := enters held
    cases current : s.seq.current with
    | none => exact .inl (ofMap (alone current).1)
    | some d =>
      obtain ⟨others, listed, -⟩ := condemned d current
      by_cases same : n = d.panel
      · subst same
        obtain ⟨fresh, caused, -⟩ := listed p found
        by_cases none : p.cause = none
        · exact .inr ⟨none, (fresh none).1⟩
        · exact .inl (caused none).1
      · exact .inl ((others n same).trans found)
  · exact .inl (ofMap (stays (by tauto)).2.1)

end

/-- A new PANEL of the list is found by its number. -/
theorem panel?_insertFeature {t : State} {fs : List Feature} {p : Panel} {entry : Pos}
    (features : t.map.features = insertFeature (panelFeature p entry) fs) (new : p.number ∉ panelNumbers fs) :
    t.panel? p.number = some p := by
  have is : (panelFeature p entry).isPanel p.number = true := decide_eq_true rfl
  have absent : fs.find? (fun f => f.isPanel p.number) = none := by
    rw [List.find?_eq_none]
    exact fun f mem has => new (mem_panelNumbers.2 ⟨f, mem, has⟩)
  rw [State.panel?, features]
  rcases find?_insertFeature (panelFeature p entry) (fun f => f.isPanel p.number) fs with ⟨-, other⟩ | ⟨-, found⟩ | ⟨notIs, -⟩
  · exact absurd absent (other is)
  · rw [found]
    rfl
  · exact absurd is (by rw [notIs]; nofun)

/-! ### A pending handoff placed SYNTHESIZED (R64, R67) -/

section
variable {s : State} {h : PendingHandoff}

/-- The state after a synthesized placement and its miss, before TRACK_LOST is latched. -/
def State.missed (s : State) (h : PendingHandoff) : State :=
  let t := s.place (s.panelOf h) h.arrival false
  { t with
    events := t.events.set .markMissed
    tracker := { t.tracker with misses := min 255 (s.tracker.misses + 1) } }

theorem State.synthesize_eq : s.synthesize h = if 1 ≤ s.tracker.misses then (s.missed h).latch .trackLost else s.missed h := by
  have misses : (s.place (s.panelOf h) h.arrival false).tracker.misses = s.tracker.misses := by simp
  have missed : (State.flag (s.place (s.panelOf h) h.arrival false) .markMissed).tracker.misses = s.tracker.misses := misses
  unfold State.synthesize State.missed
  rw [State.panelOf] at missed
  simp only [missed]
  by_cases again : 1 ≤ s.tracker.misses
  · rw [if_pos again, if_pos (by omega)]
    rfl
  · rw [if_neg again, if_neg (by omega)]
    rfl

theorem State.synthesize_first (none : s.tracker.misses = 0) : s.synthesize h = s.missed h := by
  rw [State.synthesize_eq, if_neg (by omega)]

/-- What a synthesized placement leaves, whether TRACK_LOST is latched with it or not. -/
theorem State.synthesize_keeps :
    s.planKept (s.synthesize h) ∧ (s.synthesize h).tracker.misses = min 255 (s.tracker.misses + 1) ∧
      (s.synthesize h).events.has .markMissed = true ∧ (1 ≤ s.tracker.misses → (s.synthesize h).events.has .trackLost = true) ∧
      (s.synthesize h).tracker.stretch = s.tracker.stretch ∧ (s.synthesize h).store = (s.missed h).store ∧
      (s.synthesize h).map.features.map (fun f => f.entry) = (s.missed h).map.features.map (fun f => f.entry) ∧
      (s.synthesize h).tracker.ref.map StretchRef.place = (s.missed h).tracker.ref.map StretchRef.place ∧
      ∀ a : Event, (s.missed h).events.has a = true → (s.synthesize h).events.has a = true := by
  have plan : s.planKept (s.missed h) := State.place_planKept (s := s) (s.panelOf h)
  have missed : (s.missed h).events.has .markMissed = true := EventLatch.set_has _ _
  have stretch : (s.missed h).tracker.stretch = s.tracker.stretch :=
    (State.place_synthesized (p := s.panelOf h) (entry := h.arrival)).2
  rw [State.synthesize_eq]
  split
  · next again =>
    exact ⟨plan.trans (by simp [State.missed]) (State.latch_planKept _ _), by simp [State.missed], State.latch_keeps _ _ missed,
      fun _ => State.latch_has, by simpa using stretch, by simp, State.latch_entries _ _, State.latch_ref _ _,
      fun a latched => State.latch_keeps _ _ latched⟩
  · next once => exact ⟨plan, rfl, missed, fun again => absurd again once, stretch, rfl, rfl, rfl, fun _ latched => latched⟩

/-- A first miss with room in the list latches MARK_MISSED and nothing more. -/
theorem State.missed_room (room : s.map.features.length < 32) :
    (s.missed h).events = s.events.set .markMissed ∧ (s.missed h).line = s.line ∧ (s.missed h).plan = s.plan := by
  have placed := State.place_room (s := s) (p := s.panelOf h) (entry := h.arrival) (claimed := false) room
  have events : (s.place (s.panelOf h) h.arrival false).events = s.events := by
    rw [State.place_synthesized.1, State.insertOrDiscard_room_frame room]
  refine ⟨?_, (congrArg State.line placed :), (congrArg State.plan placed :)⟩
  rw [← events]
  rfl

theorem State.expireHandoff_cons {rest : List PendingHandoff} (waiting : s.tracker.handoffs = h :: rest) :
    s.expireHandoff = State.synthesize { s with tracker := { s.tracker with handoffs := rest } } h := by
  rw [State.expireHandoff, waiting]

end

theorem reaches_false {now p : Pos} {d : Nat} (short : travel now p < (d : Int)) : ¬ reaches now p d = true := by
  rw [reaches, decide_eq_true_eq]
  omega

/-- Settles O36: a handoff's expiry is a SYNTHESIZED placement at its arrival. -/
theorem claimWindowsExpire : Obligations.ClaimWindowsExpire := by
  refine fun s => ⟨fun h rest waiting => ⟨fun short => ?_, fun over_ => ?_⟩, fun m rest waiting => ⟨fun short => ?_, fun over_ => ?_⟩⟩
  · show execHandoffWindowExpiry s = _
    rw [execHandoffWindowExpiry, waiting]
    exact congrArg Host.Outcome.next (if_neg (reaches_false short))
  · let u : State := { s with tracker := { s.tracker with handoffs := rest } }
    have taken : exec .handoffWindowExpiry s = .next (u.synthesize h) := by
      show execHandoffWindowExpiry s = _
      rw [execHandoffWindowExpiry, waiting]
      refine congrArg Host.Outcome.next ((if_pos (decide_eq_true over_)).trans ?_)
      exact State.expireHandoff_cons waiting
    obtain ⟨plan, misses, missed, lost, stretch, store, entries, ref, events⟩ := State.synthesize_keeps (s := u) (h := h)
    refine ⟨_, taken, by simp [u], misses, missed, lost, stretch, by simp [u], by simp [u], plan, by simp [u], fun room new => ?_,
      fun room held => ?_, fun full => ?_⟩
    · obtain ⟨p, features, number, pattern, nominal, cause, planDrawn, settles, newRef⟩ :=
        State.place_panelOf (s := u) (h := h) (entry := h.arrival) (claimed := false) room new
      have inMissed : (u.missed h).panel? h.number = some p := by
        rw [← number]
        exact panel?_insertFeature (t := u.missed h) features (by rw [number]; exact new)
      refine ⟨p, number, pattern, nominal, cause, planDrawn, ?_, ?_, ?_, fun first => ?_⟩
      · rw [entries]
        exact congrArg (List.map _) features
      · rw [State.synthesize_eq]
        split
        · next again =>
          exact (State.latch_panel? _ .trackLost inMissed).imp id fun ⟨fresh, halted⟩ => ⟨cause ▸ fresh, again, halted⟩
        · exact .inl inMissed
      · refine ref.trans ((congrArg (Option.map StretchRef.place) newRef).trans rfl)
      · rw [State.synthesize_first (s := u) first]
        obtain ⟨set, line, plan⟩ := State.missed_room (s := u) (h := h) room
        exact ⟨features, settles, congrArg (Option.map fun r => r.rejected) newRef, set, line, plan⟩
    · obtain ⟨map, sameStore, seq, none, -⟩ :=
        State.place_held (s := u) (p := u.panelOf h) (entry := h.arrival) (claimed := false) room held
      refine ⟨?_, ?_, store.trans sameStore, fun first => ?_⟩
      · rw [entries]
        exact congrArg (fun m : WebMap => m.features.map fun f => f.entry) map
      · refine Option.map_eq_none_iff.1 (ref.trans ?_)
        exact congrArg (Option.map StretchRef.place) none
      · rw [State.synthesize_first (s := u) first]
        exact ⟨(State.missed_room (s := u) (h := h) room).1, map, seq⟩
    · obtain ⟨latched, none, sameStore, sameEntries⟩ :=
        State.place_full_keeps (s := u) (entry := h.arrival) (claimed := false) (u.panelOf h) full
      refine ⟨entries.trans sameEntries, Option.map_eq_none_iff.1 (ref.trans ?_), store.trans sameStore, events _ ?_⟩
      · exact congrArg (Option.map StretchRef.place) none
      · exact (EventLatch.has_set _ _ _).trans (by rw [latched]; rfl)
  · show execMarkWindowExpiry s = _
    rw [execMarkWindowExpiry, waiting]
    exact congrArg Host.Outcome.next (if_neg (reaches_false short))
  · show execMarkWindowExpiry s = _
    rw [execMarkWindowExpiry, waiting]
    refine congrArg Host.Outcome.next ((if_pos (decide_eq_true over_)).trans ?_)
    rw [State.discardMark, waiting]
    rfl

end Sys2Proof.Machine
end

section
/-! SUPPORT. The PANEL handoffs and their pairing (R61, R63, R66), and s at CLAIMED marks (R70). -/

namespace Sys2Proof.Machine

theorem State.acceptsFrom_iff {s : State} {sender : BitVec 4} :
    s.acceptsFrom sender = true ↔ s.cfg.origin = false ∧ s.source = some sender := by
  rw [State.acceptsFrom, Bool.and_eq_true, Bool.not_eq_true', decide_eq_true_eq]

/-! ### An accepted PANEL handoff (R61, R63, R66) -/

section
variable {s : State} {sender : BitVec 4} {h : PendingHandoff}

theorem State.takeHandoff_ignored
    (ignored : s.cfg.origin = true ∨ s.source ≠ some sender ∨ ∃ g ∈ s.tracker.handoffs, g.number = h.number) :
    s.takeHandoff sender h = s := by
  refine if_neg fun takes => ?_
  obtain ⟨accepts, new⟩ := Bool.and_eq_true_iff.1 takes
  obtain ⟨away, source⟩ := State.acceptsFrom_iff.1 accepts
  rcases ignored with origin | other | ⟨g, mem, same⟩
  · exact nomatch origin.symm.trans away
  · exact other source
  · have pending : (s.tracker.handoffs.any fun g => decide (g.number = h.number)) = true :=
      List.any_eq_true.2 ⟨g, mem, decide_eq_true same⟩
    rw [pending] at new
    exact nomatch new

theorem State.takeHandoff_taken (away : s.cfg.origin = false) (source : s.source = some sender)
    (new : ∀ g ∈ s.tracker.handoffs, g.number ≠ h.number) : s.takeHandoff sender h = s.pairHandoff h := by
  refine if_pos (Bool.and_eq_true_iff.2 ⟨State.acceptsFrom_iff.2 ⟨away, source⟩, ?_⟩)
  rw [Bool.not_eq_true', List.any_eq_false]
  exact fun g mem => by simpa using new g mem

theorem State.pairHandoff_claims (sensor : s.cfg.markSensor = true) {m : Pos} {rest : List Pos} (marks : s.tracker.marks = m :: rest) :
    s.pairHandoff h = State.claim { s with tracker := { s.tracker with marks := rest } } h m := by
  rw [State.pairHandoff, if_pos sensor, marks]

theorem State.pairHandoff_waits (sensor : s.cfg.markSensor = true) (marks : s.tracker.marks = []) :
    s.pairHandoff h =
      (if 4 ≤ s.tracker.handoffs.length then
        { s.expireHandoff with
          tracker := { s.expireHandoff.tracker with handoffs := s.expireHandoff.tracker.handoffs ++ [h] } }
      else { s with tracker := { s.tracker with handoffs := s.tracker.handoffs ++ [h] } }) := by
  rw [State.pairHandoff, if_pos sensor, marks]
  by_cases full : 4 ≤ s.tracker.handoffs.length
  · simp only [if_pos full]
  · simp only [if_neg full]

theorem State.pairHandoff_atOnce (none : s.cfg.markSensor = false) :
    s.pairHandoff h = s.offerFeature (panelFeature (s.panelOf h) h.arrival) := by
  rw [State.pairHandoff, if_neg (by simp [none])]
  rfl

/-- What a PANEL placed without a mark sensor leaves, with room in the list. -/
theorem State.offerFeature_panel_room {p : Panel} {entry : Pos} (room : s.map.features.length < 32) :
    s.offerFeature (panelFeature p entry) =
      { s with
        map := (s.offerFeature (panelFeature p entry)).map
        store := (s.offerFeature (panelFeature p entry)).store
        seq := (s.offerFeature (panelFeature p entry)).seq
        tracker := { s.tracker with ref := (s.offerFeature (panelFeature p entry)).tracker.ref } } := by
  by_cases held : p.number ∈ panelNumbers s.map.features
  · rw [State.offerFeature_held room held]
  · rw [State.offerFeature_panel room held, State.insertOrDiscard_panel_frame room held]

end

theorem exec_handoffPanel {s : State} {bytes : List Byte} {sender : BitVec 4} {n l : BitVec 32} {pat : BitVec 16} {c : Byte}
    (hears : s.hears bytes ⟨sender, .handoffPanel n pat l c⟩) :
    exec (.handoffPanel bytes) s =
      .next
        (s.heard.takeHandoff sender
          { number := n.toNat, pattern := pat.toNat, nominal := l.toNat, cause := causeOfCode c, arrival := s.tracker.position }) :=
  exec_takes hears

/-- Settles O35: claimed by a waiting mark, left to wait, the oldest pushed out, or placed at once. -/
theorem panelHandoffsArePairedWithMarks : Obligations.PanelHandoffsArePairedWithMarks := by
  intro s bytes sender n pat l c hears
  let h : PendingHandoff :=
    { number := n.toNat, pattern := pat.toNat, nominal := l.toNat, cause := causeOfCode c, arrival := s.tracker.position }
  have heard : exec (.handoffPanel bytes) s = .next (s.heard.takeHandoff sender h) := exec_handoffPanel hears
  refine ⟨fun ignored => heard.trans (congrArg _ (State.takeHandoff_ignored ignored)), fun away source new => ?_⟩
  have taken : exec (.handoffPanel bytes) s = .next (s.heard.pairHandoff h) :=
    heard.trans (congrArg _ (State.takeHandoff_taken away source new))
  refine ⟨fun sensor marks few => ?_, fun g rest sensor marks waiting full => ?_, fun entry placing => ?_⟩
  · rw [taken, State.pairHandoff_waits (s := s.heard) sensor marks]
    exact congrArg Host.Outcome.next (if_neg (Nat.not_le.2 few))
  · let u : State := { s.heard with tracker := { s.tracker with handoffs := rest } }
    let v : State := u.synthesize g
    have pushes : s.heard.pairHandoff h = { v with tracker := { v.tracker with handoffs := v.tracker.handoffs ++ [h] } } := by
      rw [State.pairHandoff_waits (s := s.heard) sensor marks, State.expireHandoff_cons (s := s.heard) waiting]
      exact if_pos full
    obtain ⟨plan, misses, missed, lost, stretch, store, entries, ref, events⟩ := State.synthesize_keeps (s := u) (h := g)
    have kept : v.tracker.handoffs = rest := by simp [v, u]
    refine ⟨_, taken.trans (congrArg _ pushes), ?_, misses, missed, lost, stretch, ?_, ?_, plan, ?_, fun room first => ?_⟩
    · exact congrArg (· ++ [h]) kept
    · show v.tracker.marks = []
      simp [v, u, marks]
    · show v.line.vCmd = s.line.vCmd
      simp [v, u, State.heard]
    · show v.dose = s.dose
      simp [v, u, State.heard]
    · have once : v = u.missed g := State.synthesize_first (s := u) first
      obtain ⟨set, line, plan⟩ := State.missed_room (s := u) (h := g) room
      rw [once]
      refine ⟨set, line, plan, State.place_panelOf (s := u) room, fun held => ?_⟩
      obtain ⟨map, sameStore, seq, none, -⟩ :=
        State.place_held (s := u) (p := u.panelOf g) (entry := g.arrival) (claimed := false) room held
      exact ⟨map, sameStore, seq, none⟩
  · rcases placing with ⟨sensor, head⟩ | ⟨noSensor, rfl⟩
    · obtain ⟨rest, marks⟩ := List.head?_eq_some_iff.1 head
      let u : State := { s.heard with tracker := { s.tracker with marks := rest } }
      let v : State := { u with tracker := { u.tracker with misses := 0 } }
      have noSensor : ¬ s.cfg.markSensor = false := by simp [sensor]
      refine ⟨u.claim h entry, taken.trans (congrArg _ (State.pairHandoff_claims (s := s.heard) sensor marks)), by simp [u],
        fun _ => ⟨by simp [u, marks], State.claim_misses u h entry⟩, by simp [u, State.heard], fun room => ?_, fun full => ?_⟩
      · obtain ⟨line, -, plan, steam, splice⟩ := State.claim_room (s := u) (h := h) room entry
        refine ⟨line, plan, steam, splice, (absurd · noSensor), fun new => ?_, State.place_held (s := v) (p := v.panelOf h) room⟩
        obtain ⟨p, features, number, pattern, nominal, cause, planDrawn, settles, ref⟩ :=
          State.place_panelOf (s := v) (h := h) (entry := entry) (claimed := true) room new
        exact ⟨p, features, number, pattern, nominal, cause, planDrawn, settles, (absurd · noSensor), fun _ => ref⟩
      · obtain ⟨latched, ref, store, entries⟩ :=
          State.place_full_keeps (s := v) (entry := entry) (claimed := true) (v.panelOf h) full
        exact ⟨latched, ref, State.place_planKept (s := v) (v.panelOf h), store, entries⟩
    · let u : State := s.heard
      let p : Panel := u.panelOf h
      have sensor : ¬ s.cfg.markSensor = true := by simp [noSensor]
      refine ⟨u.offerFeature (panelFeature p s.tracker.position),
        taken.trans (congrArg _ (State.pairHandoff_atOnce (s := s.heard) noSensor)), by simp [u, State.heard], (absurd · sensor),
        by simp [u, State.heard], fun room => ?_, fun full => ?_⟩
      · have frame := State.offerFeature_panel_room (s := u) (p := p) (entry := s.tracker.position) room
        refine ⟨(congrArg State.line frame :), (congrArg State.plan frame :), (congrArg State.steam frame :),
          (congrArg State.splice frame :), fun _ => ⟨(congrArg State.tracker frame :), (congrArg State.events frame :)⟩,
          fun new => ?_, fun held => ?_⟩
        · have inserts := State.offerFeature_panel (s := u) (p := p) (entry := s.tracker.position) room new
          have inserted := State.insertOrDiscard_panel_frame (s := u) (p := p) (entry := s.tracker.position) room new
          refine ⟨p, ?_, rfl, rfl, rfl, rfl, rfl, ?_, fun _ => ?_, (absurd · sensor)⟩
          · rw [inserts, inserted]
            rfl
          · exact u.offerFeature_settlesPanel h.number h.pattern (some h.nominal) h.cause false s.tracker.position room new
          · rw [inserts, inserted]
            rfl
        · rw [State.offerFeature_held (s := u) room held]
          exact ⟨rfl, rfl, rfl, rfl, fun _ _ => rfl⟩
      · rw [State.offerFeature_full (s := u) full]
        exact ⟨State.latch_has, rfl, u.latch_planKept .mapFull, by simp [u, State.heard], u.latch_entries .mapFull⟩

end Sys2Proof.Machine
end

section
/-! SUPPORT. The update of s at a CLAIMED mark (R70). -/

namespace Sys2Proof.Machine

section
variable {s : State} {p : Pos}

/-- With room in the list, a CLAIMED placement updates s and latches what the update alone does. -/
theorem State.place_stretch (q : Panel) (room : s.map.features.length < 32) :
    (s.place q p true).tracker.stretch = (s.updateStretch p).tracker.stretch ∧
      (s.place q p true).events = (s.updateStretch p).events := by
  have frame := State.insertOrDiscard_room_frame (s := s) (p := q) (entry := p) room
  have updates : (s.place q p true).tracker.stretch = ((s.insertOrDiscard (panelFeature q p)).updateStretch p).tracker.stretch ∧
      (s.place q p true).events = ((s.insertOrDiscard (panelFeature q p)).updateStretch p).events := ⟨rfl, rfl⟩
  have tracker : (s.insertOrDiscard (panelFeature q p)).tracker = s.tracker := (congrArg State.tracker frame :)
  have events : (s.insertOrDiscard (panelFeature q p)).events = s.events := (congrArg State.events frame :)
  rw [updates.1, updates.2]
  cases inputs : s.tracker.stretchInputs p with
  | none => rw [State.updateStretch_none inputs, State.updateStretch_none (by rw [tracker]; exact inputs), tracker, events]; exact ⟨rfl, rfl⟩
  | some ml =>
    rw [State.updateStretch_some inputs, State.updateStretch_some (by rw [tracker]; exact inputs), events]
    exact ⟨rfl, rfl⟩

theorem guardAllows_iff (guard : Option Pos) (mark : Pos) :
    guardAllows guard mark p = true ↔ ∀ g, guard = some g → 0 ≤ travel mark g ∨ travel p g < 0 := by
  cases guard with
  | none => exact iff_of_true rfl nofun
  | some g => simp [guardAllows, atOrBefore]

variable {t : Tracker} {r : StretchRef} {l : Nat}

theorem Tracker.stretchInputs_some (ref : t.ref = some r) (nominal : r.nominal = some l) (claimed : r.claimed = true)
    (good : r.rejected = false) (positive : 0 < l) (guard : ∀ g, t.guard = some g → 0 ≤ travel r.mark g ∨ travel p g < 0) {m : Nat}
    (moved : travel p r.mark = (m : Int)) (least : l ≤ 2 * m) (most : 2 * m ≤ 3 * l) : t.stretchInputs p = some (m, l) := by
  rw [Tracker.stretchInputs, ref]
  simp only [nominal, moved]
  rw [if_pos ⟨claimed, good, (guardAllows_iff _ _).2 guard, positive, by omega, by omega⟩]
  rfl

theorem Tracker.stretchInputs_none
    (bad : t.ref = none ∨ ∃ r, t.ref = some r ∧
      (r.claimed = false ∨ r.rejected = true ∨ r.nominal = none ∨ r.nominal = some 0 ∨
        (∃ g, t.guard = some g ∧ travel r.mark g < 0 ∧ 0 ≤ travel p g) ∨
        ∃ l, r.nominal = some l ∧ (2 * travel p r.mark < (l : Int) ∨ 3 * (l : Int) < 2 * travel p r.mark))) :
    t.stretchInputs p = none := by
  rcases bad with absent | ⟨r, ref, bad⟩
  · rw [Tracker.stretchInputs, absent]
  · rw [Tracker.stretchInputs, ref]
    cases nominal : r.nominal with
    | none => simp only [nominal]
    | some l =>
      simp only [nominal]
      refine if_neg fun ⟨claimed, good, guard, positive, least, most⟩ => ?_
      rcases bad with synthesized | rejected | unknown | zero | ⟨g, set, after, before⟩ | ⟨l', length, outside⟩
      · exact nomatch synthesized.symm.trans claimed
      · exact nomatch rejected.symm.trans good
      · exact nomatch unknown.symm.trans nominal
      · obtain rfl := Option.some.inj (zero.symm.trans nominal)
        exact Nat.lt_irrefl 0 positive
      · have allowed := (guardAllows_iff _ _).1 guard g set
        omega
      · obtain rfl := Option.some.inj (length.symm.trans nominal)
        omega

/-- Every mark the update is stated for is a CLAIMED placement at it, in a state that agrees with `s` in what the update reads. -/
theorem State.claimedMark {c : Instr} (room : s.map.features.length < 32)
    (marks : c = .markSensed ∧ s.boot.phase = .done ∧ s.cfg.markSensor = true ∧ s.tracker.lastMark ≠ some s.tracker.position ∧
        p = s.tracker.position ∧ (s.cfg.origin = true ∨ s.tracker.handoffs ≠ []) ∨
      (∃ bytes sender n pattern l cause, c = .handoffPanel bytes ∧ s.hears bytes ⟨sender, .handoffPanel n pattern l cause⟩ ∧
        s.cfg.origin = false ∧ s.source = some sender ∧ (∀ h ∈ s.tracker.handoffs, h.number ≠ n.toNat) ∧
        s.cfg.markSensor = true ∧ s.tracker.marks.head? = some p)) :
    ∃ (u : State) (q : Panel), exec c s = .next (u.place q p true) ∧ u.tracker.ref = s.tracker.ref ∧ u.tracker.guard = s.tracker.guard ∧
      u.tracker.stretch = s.tracker.stretch ∧ u.events = s.events ∧ u.map = s.map ∧ u.store = s.store ∧ u.seq = s.seq ∧
      (q.number ∉ panelNumbers s.map.features → s.settlesPanel (u.place q p true) q p) := by
  rcases marks with ⟨rfl, done, sensor, moved, rfl, taken⟩ | ⟨bytes, sender, n, pat, l, k, rfl, hears, away, source, new, sensor, head⟩
  · cases origin : s.cfg.origin with
    | true =>
      refine ⟨s.created, s.marked.createdPanel, exec_markSensed_origin done sensor origin moved, rfl, rfl, rfl, rfl, rfl, rfl, rfl,
        fun new => State.created_settlesPanel room ?_⟩
      rwa [State.createdPanel_number (s := s.marked)] at new
    | false =>
      have waits : s.tracker.handoffs ≠ [] := taken.resolve_left (by simp [origin])
      obtain ⟨h, rest, waiting⟩ := List.exists_cons_of_ne_nil waits
      let u : State :=
        { s with tracker := { s.tracker with lastMark := some s.tracker.position, handoffs := rest, misses := 0 } }
      refine ⟨u, u.panelOf h, ?_, rfl, rfl, rfl, rfl, rfl, rfl, rfl, fun new => State.place_settlesPanel (s := u) room new⟩
      rw [exec_markSensed_other done sensor origin moved, State.pairMark]
      dsimp only
      rw [waiting]
      rfl
  · obtain ⟨rest, marks⟩ := List.head?_eq_some_iff.1 head
    let h : PendingHandoff :=
      { number := n.toNat, pattern := pat.toNat, nominal := l.toNat, cause := causeOfCode k, arrival := s.tracker.position }
    let u : State := { s.heard with tracker := { s.tracker with marks := rest, misses := 0 } }
    refine ⟨u, u.panelOf h, ?_, rfl, rfl, rfl, rfl, rfl, rfl, rfl, fun new => State.place_settlesPanel (s := u) room new⟩
    rw [exec_handoffPanel hears, State.takeHandoff_taken (s := s.heard) (h := h) away source new,
      State.pairHandoff_claims (s := s.heard) sensor marks]
    rfl

end

/-- Settles O34: the update reads the reference, the guard and the mark alone. -/
theorem stretchFollowsGoodPairsOfMarks : Obligations.StretchFollowsGoodPairsOfMarks := by
  intro s c p room marks
  obtain ⟨u, q, taken, ref, guard, stretch, events, map, store, seq, settles⟩ := State.claimedMark room marks
  have roomU : u.map.features.length < 32 := by rw [map]; exact room
  obtain ⟨updated, latched⟩ := State.place_stretch (s := u) (p := p) q roomU
  refine ⟨_, taken, fun r l isRef nominal claimed good positive allowed m moved least most => ?_, fun bad => ?_, ?_⟩
  · have inputs := Tracker.stretchInputs_some (t := u.tracker) (ref.trans isRef) nominal claimed good positive
      (by rw [guard]; exact allowed) moved least most
    rw [updated, latched, State.updateStretch_some inputs, events]
    refine ⟨rfl, fun clamped => if_pos clamped, fun low high => if_neg ?_⟩
    show ¬ (stretchValue m l < 61440 ∨ 69632 < stretchValue m l)
    rw [stretchValue]
    omega
  · have inputs := Tracker.stretchInputs_none (t := u.tracker) (p := p) (by rw [ref, guard]; exact bad)
    rw [updated, latched, State.updateStretch_none inputs]
    exact ⟨stretch, events⟩
  · by_cases held : q.number ∈ panelNumbers s.map.features
    · obtain ⟨sameMap, sameStore, sameSeq, -⟩ := State.place_held (s := u) (p := q) (entry := p) (claimed := true) roomU (by rwa [map])
      exact .inl ⟨sameMap.trans map, sameStore.trans store, sameSeq.trans seq⟩
    · obtain ⟨features, -⟩ := State.place_new (s := u) (p := q) (entry := p) (claimed := true) roomU (by rwa [map])
      rw [map] at features
      exact .inr ⟨q, features, settles held⟩

end Sys2Proof.Machine
end

section
/-! SUPPORT. SPLICE and REJECT handoffs (R83 to R86). -/

namespace Sys2Proof.Machine

theorem modifyFirst_append {α : Type} {p : α → Bool} {before : List α} (skipped : ∀ x ∈ before, p x = false) {a : α} (taken : p a = true)
    (g : α → α) (after : List α) : modifyFirst p g (before ++ a :: after) = before ++ g a :: after := by
  induction before with
  | nil => exact if_pos taken
  | cons x xs ih =>
    have passes : modifyFirst p g (x :: (xs ++ a :: after)) = x :: modifyFirst p g (xs ++ a :: after) :=
      if_neg (by rw [skipped x (List.mem_cons_self ..)]; nofun)
    exact passes.trans (congrArg _ (ih fun y mem => skipped y (List.mem_cons_of_mem _ mem)))

theorem find?_append_of_skipped {α : Type} {p : α → Bool} {before : List α} (skipped : ∀ x ∈ before, p x = false) {a : α}
    (taken : p a = true) (after : List α) : (before ++ a :: after).find? p = some a := by
  rw [List.find?_append, List.find?_eq_none.2 (fun x mem => by rw [skipped x mem]; nofun), Option.none_or, List.find?_cons, taken]

/-- A feature before which no PANEL has its number is the one found by it. -/
theorem Feature.isPanel_of_body {f : Feature} {p : Panel} (body : f.body = .panel p) : f.isPanel p.number = true := by
  rw [Feature.isPanel, body]
  exact decide_eq_true rfl

theorem isPanel_false_of_not_mem {fs : List Feature} {n : Nat} (absent : n ∉ panelNumbers fs) : ∀ f ∈ fs, f.isPanel n = false :=
  fun f mem => Bool.eq_false_iff.2 fun is => absent (mem_panelNumbers.2 ⟨f, mem, is⟩)

theorem State.panel?_of_split {s : State} {before after : List Feature} {f : Feature} {p : Panel}
    (features : s.map.features = before ++ f :: after) (absent : p.number ∉ panelNumbers before) (body : f.body = .panel p) :
    s.panel? p.number = some p := by
  rw [State.panel?, features, find?_append_of_skipped (isPanel_false_of_not_mem absent) (Feature.isPanel_of_body body)]
  exact Feature.panel?_eq_some.2 body

theorem causeOfCode_of_code {c : Byte} {k : RejectCause} (code : c.toNat = k.code) : causeOfCode c = some k := by
  rw [causeOfCode, code]
  cases k <;> rfl

section
variable {s : State} {n : Nat} {c : Byte} {k : RejectCause}

theorem State.takeReject_none (none : causeOfCode c = none) : s.takeReject n c = s := by rw [State.takeReject, none]

theorem State.takeReject_listed (cause : causeOfCode c = some k) {p : Panel} (listed : s.panel? n = some p) :
    s.takeReject n c = if p.cause = none then s.caused n k else s := by
  rw [← State.condemn_listed listed, State.condemn, State.takeReject, cause, if_pos (by rw [listed]; rfl)]
  exact if_pos (by rw [listed]; rfl)

theorem State.takeReject_pending (cause : causeOfCode c = some k) (gone : s.panel? n = none) {before after : List PendingHandoff}
    {h : PendingHandoff} (handoffs : s.tracker.handoffs = before ++ h :: after) (others : ∀ g ∈ before, g.number ≠ n)
    (number : h.number = n) :
    s.takeReject n c = { s with tracker := { s.tracker with handoffs := before ++ h.withCause k :: after } } := by
  have skipped : ∀ g ∈ before, decide (g.number = n) = false := fun g mem => decide_eq_false (others g mem)
  have pending : (s.tracker.handoffs.any fun g => decide (g.number = n)) = true :=
    List.any_eq_true.2 ⟨h, by rw [handoffs]; simp, decide_eq_true number⟩
  rw [State.takeReject, cause]
  dsimp only
  rw [if_neg (by rw [gone]; nofun), if_pos pending, handoffs, modifyFirst_append skipped (decide_eq_true number)]

theorem State.takeReject_on (cause : causeOfCode c = some k) (gone : s.panel? n = none) (others : ∀ g ∈ s.tracker.handoffs, g.number ≠ n) :
    s.takeReject n c = s.rejectNotice n c := by
  rw [State.takeReject, cause]
  dsimp only
  rw [if_neg (by rw [gone]; nofun)]
  exact if_neg fun pending => by
    obtain ⟨g, mem, same⟩ := List.any_eq_true.1 pending
    exact others g mem (of_decide_eq_true same)

theorem State.rejectNotice_dropped (dropped : s.isLast = true ∨ 8 ≤ s.link.handoffFifo.length ∨ s.events.has .duplicateIndex = true) :
    s.rejectNotice n c = s.flag .lateReject := by
  rw [State.rejectNotice]
  cases last : s.isLast with
  | true => rfl
  | false =>
    have full : s.handoffRoom ≠ true := by
      rw [ne_eq, State.handoffRoom_iff]
      rintro ⟨room, single⟩
      rcases dropped with isLast | full | duplicate
      · exact nomatch isLast.symm.trans last
      · omega
      · exact nomatch duplicate.symm.trans single
    rw [if_neg full]
    rfl

theorem State.rejectNotice_sent (notLast : s.isLast = false) (room : s.link.handoffFifo.length < 8)
    (single : s.events.has .duplicateIndex = false) :
    s.rejectNotice n c = s.pushHandoff (.handoffReject (BitVec.ofNat 32 n) c) := by
  rw [State.rejectNotice, notLast, State.handoffRoom_iff.2 ⟨room, single⟩]
  rfl

theorem PendingHandoff.withCause_eq (h : PendingHandoff) : h.withCause k = if h.cause = none then { h with cause := some k } else h := by
  unfold PendingHandoff.withCause
  cases cause : h.cause <;> rfl

/-- A cause recorded on the PANEL of a list away from the origin. -/
theorem State.caused_of_split (away : s.cfg.origin = false) {before after : List Feature} {f : Feature} {p : Panel}
    (features : s.map.features = before ++ f :: after) (absent : p.number ∉ panelNumbers before) (body : f.body = .panel p)
    (fresh : p.cause = none) :
    s.caused p.number k =
      { s with
        map := { s.map with features := before ++ { f with body := .panel { p with cause := some k } } :: after }
        tracker := { s.tracker with ref := rejectRef s.tracker.ref p.number } } := by
  have marked : (f.mapPanel fun q => q.withCause k) = { f with body := .panel { p with cause := some k } } := by
    rw [Feature.mapPanel, body]
    simp only [Panel.withCause, fresh]
  rw [State.caused, State.planAfter_away away, features,
    modifyFirst_append (isPanel_false_of_not_mem absent) (Feature.isPanel_of_body body), marked]

end

theorem exec_handoffSplice {s : State} {bytes : List Byte} {sender : BitVec 4} {n : BitVec 32}
    (hears : s.hears bytes ⟨sender, .handoffSplice n⟩) :
    exec (.handoffSplice bytes) s =
      .next (if s.heard.acceptsFrom sender then s.heard.offerFeature (spliceFeature n.toNat s.tracker.position) else s.heard) :=
  exec_takes hears

theorem exec_handoffReject {s : State} {bytes : List Byte} {sender : BitVec 4} {n : BitVec 32} {c : Byte}
    (hears : s.hears bytes ⟨sender, .handoffReject n c⟩) :
    exec (.handoffReject bytes) s = .next (if s.heard.acceptsFrom sender then s.heard.takeReject n.toNat c else s.heard) :=
  exec_takes hears

theorem State.heard_refuses {s : State} {sender : BitVec 4} (other : s.cfg.origin = true ∨ s.source ≠ some sender) :
    ¬ s.heard.acceptsFrom sender = true := by
  rw [State.acceptsFrom_iff]
  rintro ⟨away, source⟩
  rcases other with origin | notSource
  · exact nomatch (show s.cfg.origin = false from away).symm.trans origin
  · exact notSource source

/-- Settles O37. -/
theorem upstreamSplicesAndRejectsAreTaken : Obligations.UpstreamSplicesAndRejectsAreTaken := by
  refine fun s bytes sender n => ⟨fun hears => ⟨fun other => ?_, fun away source => ?_⟩, fun c hears => ⟨fun ignored => ?_, ?_⟩⟩
  · rw [exec_handoffSplice hears, if_neg (State.heard_refuses other)]
  · have accepts : s.heard.acceptsFrom sender = true := State.acceptsFrom_iff.2 ⟨away, source⟩
    rw [exec_handoffSplice hears, if_pos accepts]
    refine ⟨fun room => congrArg _ (State.offerFeature_splice (s := s.heard) room), fun full => ⟨_, rfl, ?_⟩⟩
    rw [State.offerFeature_full (s := s.heard) full]
    exact ⟨State.latch_has, by simp [State.heard], rfl, State.latch_length _ _⟩
  · rw [exec_handoffReject hears]
    split
    · next accepts =>
      obtain ⟨away, source⟩ := State.acceptsFrom_iff.1 accepts
      rcases ignored with origin | notSource | rfl
      · exact nomatch (show s.cfg.origin = false from away).symm.trans origin
      · exact absurd source notSource
      · rw [State.takeReject_none rfl]
    · rfl
  · intro away source k code
    have cause := causeOfCode_of_code code
    have accepts : s.heard.acceptsFrom sender = true := State.acceptsFrom_iff.2 ⟨away, source⟩
    have taken : exec (.handoffReject bytes) s = .next (s.heard.takeReject n.toNat c) := by
      rw [exec_handoffReject hears, if_pos accepts]
    rw [taken]
    refine ⟨fun before f after p features absent body number => ?_, fun gone => ?_⟩
    · rw [← number] at absent ⊢
      rw [State.takeReject_listed cause (State.panel?_of_split (s := s.heard) features absent body)]
      refine ⟨fun caused => by rw [if_neg caused], fun fresh => ?_⟩
      rw [if_pos fresh, State.caused_of_split (s := s.heard) away features absent body fresh]
      rfl
    · have absent : s.heard.panel? n.toNat = none := by
        rw [← Option.not_isSome_iff_eq_none, State.panel?_isSome]
        exact gone
      refine ⟨fun before h after handoffs others number => ?_, fun others => ?_⟩
      · rw [State.takeReject_pending (s := s.heard) cause absent handoffs others number, PendingHandoff.withCause_eq]
        rfl
      · rw [State.takeReject_on (s := s.heard) cause absent others]
        refine ⟨fun dropped => congrArg _ (State.rejectNotice_dropped (s := s.heard) dropped), fun notLast room single => ?_⟩
        rw [State.rejectNotice_sent (s := s.heard) notLast room single, BitVec.ofNat_toNat, BitVec.setWidth_eq]
        rfl

end Sys2Proof.Machine
end

section
/-! SUPPORT. The Plan Queue: PLAN (R88), and the splice at the origin's entry (R92, R93). -/

namespace Sys2Proof.Machine

/-! ### A count given back (R93) -/

section
variable {q : PlanQueue} {c : CreatedPanel}

theorem PlanQueue.giveBack_nothing (nothing : c.planDrawn = false ∨ c.inserted = false) : q.giveBack c = q :=
  if_neg (by rcases nothing with no | no <;> simp [no])

theorem PlanQueue.giveBack_nil (drawn : c.planDrawn = true) (inserted : c.inserted = true) (entries : q.entries = []) :
    q.giveBack c = { q with entries := [{ pattern := c.pattern, count := 1 }] } := by
  rw [PlanQueue.giveBack, if_pos (by rw [drawn, inserted]; rfl), entries]

theorem PlanQueue.giveBack_cons (drawn : c.planDrawn = true) (inserted : c.inserted = true) {e : PlanEntry} {rest : List PlanEntry}
    (entries : q.entries = e :: rest) :
    q.giveBack c =
      if e.pattern = c.pattern ∧ e.count < 65535 then { q with entries := { e with count := e.count + 1 } :: rest }
      else if q.entries.length < 16 then { q with entries := { pattern := c.pattern, count := 1 } :: q.entries }
      else q := by
  rw [PlanQueue.giveBack, if_pos (by rw [drawn, inserted]; rfl), entries]

theorem PlanQueue.giveBack_entries (drawn : c.planDrawn = true) (inserted : c.inserted = true) :
    (∀ e rest, q.entries = e :: rest → e.pattern = c.pattern → e.count < 65535 →
        (q.giveBack c).entries = { e with count := e.count + 1 } :: rest) ∧
      ((∀ e rest, q.entries = e :: rest → e.pattern ≠ c.pattern ∨ 65535 ≤ e.count) →
        (q.entries.length < 16 → (q.giveBack c).entries = { pattern := c.pattern, count := 1 } :: q.entries) ∧
        (16 ≤ q.entries.length → (q.giveBack c).entries = q.entries)) := by
  refine ⟨fun e rest entries pattern room => ?_, fun other => ?_⟩
  · rw [PlanQueue.giveBack_cons drawn inserted entries, if_pos ⟨pattern, room⟩]
  · cases entries : q.entries with
    | nil =>
      rw [PlanQueue.giveBack_nil drawn inserted entries]
      exact ⟨fun _ => rfl, fun full => absurd full (by simp)⟩
    | cons e rest =>
      have notHead : ¬ (e.pattern = c.pattern ∧ e.count < 65535) := by
        have := other e rest entries
        omega
      rw [PlanQueue.giveBack_cons drawn inserted entries, if_neg notHead, ← entries]
      exact ⟨fun room => by rw [if_pos room], fun full => by rw [if_neg (Nat.not_lt.2 full)]⟩

end

/-! ### The splice at the entry (R92, R93) -/

section
variable {s : State} {c : CreatedPanel} {k : RejectCause}

/-- A cause set on the origin's last created panel stays with it, the first alone. -/
theorem State.planAfter_last (origin : s.cfg.origin = true) (last : s.plan.lastCreated = some c) :
    s.planAfter c.number k = { s.plan with lastCreated := some { c with cause := some (c.cause.getD k) } } := by
  rw [State.planAfter, last]
  cases cause : c.cause with
  | none => exact if_pos ⟨origin, rfl, cause⟩
  | some first =>
    have same : ({ c with cause := some first } : CreatedPanel) = c := by rw [← cause]
    refine (if_neg fun ⟨_, _, fresh⟩ => nomatch fresh.symm.trans cause).trans ?_
    rw [Option.getD_some, same, ← last]

/-- The plan once the last created panel has given its count back. -/
def State.givenBack (s : State) (c : CreatedPanel) : State := { s with plan := s.plan.giveBack c }

theorem State.spliceAtEntry_idle
    (idle : s.plan.lastCreated = none ∨ ∃ c p, s.plan.lastCreated = some c ∧ s.panel? c.number = some p ∧ p.cause ≠ none) :
    s.spliceAtEntry = s := by
  rcases idle with absent | ⟨c, p, last, listed, caused⟩
  · rw [State.spliceAtEntry, absent]
  · rw [State.spliceAtEntry, last]
    dsimp only
    rw [listed]
    exact if_neg (by rw [Option.isNone_iff_eq_none]; exact caused)

theorem State.spliceAtEntry_listed (last : s.plan.lastCreated = some c) {p : Panel} (listed : s.panel? c.number = some p)
    (fresh : p.cause = none) : s.spliceAtEntry = (s.givenBack c).caused c.number .spliced := by
  rw [State.spliceAtEntry, last]
  dsimp only
  rw [listed]
  refine (if_pos (by rw [fresh]; rfl)).trans ?_
  have condemned := State.condemn_listed (s := s.givenBack c) (n := c.number) (c := .spliced) (p := p) listed
  rw [if_pos fresh] at condemned
  rw [← condemned, State.condemn]
  exact (if_pos (show ((s.givenBack c).panel? c.number).isSome = true from by
    rw [show (s.givenBack c).panel? c.number = some p from listed]; rfl)).symm

theorem State.spliceAtEntry_last (last : s.plan.lastCreated = some c) (gone : s.panel? c.number = none) (atEnd : s.isLast = true) :
    s.spliceAtEntry = s.flag .lateReject := by
  rw [State.spliceAtEntry, last]
  dsimp only
  rw [gone, if_neg fun ⟨notLast, _⟩ => nomatch notLast.symm.trans atEnd]
  exact State.noticeOf_last atEnd

/-- The state whose notice is offered: the count is back where no cause was carried. -/
def State.noticing (s : State) (c : CreatedPanel) : State := if c.cause = none then s.givenBack c else s

theorem State.spliceAtEntry_gone (last : s.plan.lastCreated = some c) (gone : s.panel? c.number = none) (notLast : s.isLast = false) :
    s.spliceAtEntry = (s.noticing c).noticeOf c.number .spliced := by
  rw [State.spliceAtEntry, last]
  dsimp only
  rw [gone, State.noticing]
  by_cases fresh : c.cause = none
  · rw [if_pos ⟨notLast, fresh⟩, if_pos fresh]
    rfl
  · rw [if_neg fun both => fresh both.2, if_neg fresh]

theorem State.noticing_same (c : CreatedPanel) :
    (s.noticing c).isLast = s.isLast ∧ (s.noticing c).link = s.link ∧ (s.noticing c).events = s.events ∧ (s.noticing c).cfg = s.cfg ∧
      (s.noticing c).map = s.map ∧ (s.noticing c).plan.lastCreated = s.plan.lastCreated ∧
      (s.noticing c).plan.counter = s.plan.counter ∧ (s.noticing c).handoffRoom = s.handoffRoom := by
  unfold State.noticing
  split
  · exact ⟨rfl, rfl, rfl, rfl, rfl, by simp [State.givenBack], by simp [State.givenBack], rfl⟩
  · exact ⟨rfl, rfl, rfl, rfl, rfl, rfl, rfl, rfl⟩

/-- The plan after a splice that condemns the last created panel, with the counts as `q` has them. -/
theorem State.spliceAtEntry_plan (origin : s.cfg.origin = true) (last : s.plan.lastCreated = some c)
    (condemns : (∃ p, s.panel? c.number = some p ∧ p.cause = none) ∨ s.panel? c.number = none ∧ s.isLast = false) :
    s.spliceAtEntry.plan.lastCreated = some { c with cause := some (c.cause.getD .spliced) } ∧
      s.spliceAtEntry.plan.counter = s.plan.counter ∧
      s.spliceAtEntry.plan.entries =
        if s.panel? c.number = none ∧ c.cause ≠ none then s.plan.entries else (s.plan.giveBack c).entries := by
  rcases condemns with ⟨p, listed, fresh⟩ | ⟨gone, notLast⟩
  · have given : (s.givenBack c).plan.lastCreated = some c := by simpa [State.givenBack] using last
    rw [State.spliceAtEntry_listed last listed fresh, if_neg fun both => nomatch both.1.symm.trans listed]
    have plan : ((s.givenBack c).caused c.number .spliced).plan = (s.givenBack c).planAfter c.number .spliced := rfl
    rw [plan, State.planAfter_last (s := s.givenBack c) origin given]
    exact ⟨rfl, by simp [State.givenBack], rfl⟩
  · obtain ⟨isLast, link, events, cfg, map, lastCreated, counter, -⟩ := State.noticing_same (s := s) c
    rw [State.spliceAtEntry_gone last gone notLast, State.noticeOf_plan, isLast, notLast, if_neg (by nofun),
      State.planAfter_last (by rw [cfg]; exact origin) (lastCreated.trans last)]
    refine ⟨rfl, counter, ?_⟩
    by_cases fresh : c.cause = none
    · rw [if_neg fun both => both.2 fresh]
      exact congrArg (fun u : State => u.plan.entries) (if_pos fresh)
    · rw [if_pos ⟨gone, fresh⟩]
      exact congrArg (fun u : State => u.plan.entries) (if_neg fresh)

end

/-! ### The splice that has newly reached the entry (R92) -/

/-- A splice marked in the list hides no PANEL. -/
theorem State.panel?_of_splice {s t : State} {before after : List Feature} {f g : Feature} {n m : Nat} {a b : Bool}
    (features : s.map.features = before ++ f :: after) (body : f.body = .splice n a) (marked : t.map.features = before ++ g :: after)
    (newBody : g.body = .splice m b) (k : Nat) : t.panel? k = s.panel? k := by
  have old : f.isPanel k = false := by rw [Feature.isPanel, body]
  have new : g.isPanel k = false := by rw [Feature.isPanel, newBody]
  simp only [State.panel?, features, marked, List.find?_append, List.find?_cons, old, new]

section
variable {s : State} {before after : List Feature} {f : Feature} {n : Nat}

/-- The state with the splice marked as having reached the entry. -/
def State.entered (s : State) (before after : List Feature) (f : Feature) (n : Nat) : State :=
  { s with map := { s.map with features := before ++ { f with body := .splice n true } :: after } }

theorem State.entryDue_splice (body : f.body = .splice n false) : s.entryDue f = decide (0 ≤ travel s.tracker.position f.entry) := by
  rw [State.entryDue, body]
  rfl

theorem State.takeEntry_first (features : s.map.features = before ++ f :: after) (body : f.body = .splice n false)
    (due : 0 ≤ travel s.tracker.position f.entry)
    (earlier : ∀ g ∈ before, ∀ m, g.body = .splice m false → travel s.tracker.position g.entry < 0) :
    s.takeEntry = (s.entered before after f n).spliceAtEntry := by
  have isDue : s.entryDue f = true := by rw [State.entryDue_splice body]; exact decide_eq_true due
  have skipped : ∀ g ∈ before, s.entryDue g = false := by
    intro g mem
    cases gBody : g.body with
    | panel p => rw [State.entryDue, gBody]
    | splice m atEntry =>
      cases atEntry with
      | true => rw [State.entryDue, gBody]; rfl
      | false =>
        rw [State.entryDue_splice gBody]
        have := earlier g mem m gBody
        exact decide_eq_false (by omega)
  have marked : markAtEntry f = { f with body := .splice n true } := by rw [markAtEntry, body]
  rw [State.takeEntry, if_pos (List.any_eq_true.2 ⟨f, by rw [features]; simp, isDue⟩), features, modifyFirst_append skipped isDue, marked]
  rfl

end

/-! ### PLAN (R88) -/

theorem exec_plan {s : State} {bytes : List Byte} {sender : BitVec 4} {targets pattern count : BitVec 16}
    (hears : s.hears bytes ⟨sender, .plan targets pattern count⟩) :
    exec (.plan bytes) s = .next (s.heard.takePlan pattern.toNat count.toNat) := exec_takes hears

/-- Settles O38. -/
theorem plansAreMadeAndGivenBack : Obligations.PlansAreMadeAndGivenBack := by
  refine ⟨fun s bytes sender targets pattern count hears => ?_, fun s before after f n origin features body due earlier => ?_⟩
  · have zero : count = 0 ↔ count.toNat = 0 := ⟨fun h => by rw [h]; rfl, fun h => BitVec.eq_of_toNat_eq h⟩
    rw [exec_plan hears]
    refine ⟨fun away => congrArg _ (if_pos away), fun origin => ?_⟩
    rw [State.takePlan, if_neg (by simp [State.heard, origin]), zero]
    refine ⟨fun outside => by rw [if_pos outside]; rfl, fun known positive => ?_⟩
    have notZero : count.toNat ≠ 0 := fun same => positive (zero.2 same)
    rw [if_neg (by omega)]
    exact ⟨fun full => congrArg _ (if_pos full), fun room => congrArg _ (if_neg (Nat.not_le.2 room))⟩
  · let u : State := s.entered before after f n
    have panels (k : Nat) : u.panel? k = s.panel? k := State.panel?_of_splice features body rfl rfl k
    have entries : u.map.features.map (fun g => g.entry) = s.map.features.map fun g => g.entry := by
      rw [features]
      simp [u, State.entered]
    have taken : exec .spliceReachesEntry s = .next u.spliceAtEntry :=
      congrArg Host.Outcome.next ((if_pos origin).trans (State.takeEntry_first features body due earlier))
    refine ⟨_, taken, fun idle => ?_, fun c last => ⟨fun p listed fresh => ?_, fun gone => ⟨?_, fun atEnd => ?_,
      fun notLast room single => ?_, fun notLast dropped => ?_⟩, fun condemns => ?_⟩, by simp [u, State.entered],
      by simp [u, State.entered], by simp [u, State.entered], by simp [u, State.entered], by simp [u, State.entered],
      by simp [u, State.entered]⟩
    · refine State.spliceAtEntry_idle (idle.imp id fun ⟨c, p, last, listed, caused⟩ => ⟨c, p, last, ?_, caused⟩)
      exact (panels _).trans listed
    · rw [State.spliceAtEntry_listed (s := u) last ((panels _).trans listed) fresh]
      have found : (u.givenBack c).panel? c.number = some p := (panels _).trans listed
      refine ⟨?_, rfl, rfl, ?_⟩
      · rw [State.caused_panel?_self found, fresh]
        rfl
      · refine Eq.trans (modifyFirst_map _ _ _ (fun x _ => ?_) _) entries
        obtain ⟨b, e, o, r⟩ := x
        cases b <;> rfl
    · cases atEnd : s.isLast with
      | true => rw [State.spliceAtEntry_last (s := u) last ((panels _).trans gone) atEnd]; rfl
      | false =>
        rw [State.spliceAtEntry_gone (s := u) last ((panels _).trans gone) atEnd, State.noticeOf_frame]
        exact (State.noticing_same (s := u) c).2.2.2.2.1
    · rw [State.spliceAtEntry_last (s := u) last ((panels _).trans gone) atEnd]
      exact ⟨rfl, rfl, rfl⟩
    · obtain ⟨isLast, link, events, -, -, -, -, room'⟩ := State.noticing_same (s := u) c
      rw [State.spliceAtEntry_gone (s := u) last ((panels _).trans gone) notLast,
        State.noticeOf_room (isLast.trans notLast) (room'.trans (State.handoffRoom_iff.2 ⟨room, single⟩)), State.pushHandoff, link]
      exact ⟨events, rfl⟩
    · obtain ⟨isLast, link, events, -, -, -, -, room'⟩ := State.noticing_same (s := u) c
      have full : u.handoffRoom = false := by
        rw [← Bool.not_eq_true, State.handoffRoom_iff]
        rintro ⟨room, single⟩
        rcases dropped with full | duplicate
        · exact absurd (show s.link.handoffFifo.length < 8 from room) (Nat.not_lt.2 full)
        · exact nomatch duplicate.symm.trans single
      rw [State.spliceAtEntry_gone (s := u) last ((panels _).trans gone) notLast,
        State.noticeOf_full (isLast.trans notLast) (room'.trans full)]
      exact ⟨link, congrArg (EventLatch.set · .lateReject) events⟩
    · rw [← panels c.number] at condemns
      obtain ⟨lastCreated, counter, counts⟩ := State.spliceAtEntry_plan (s := u) origin last condemns
      rw [panels] at counts
      refine ⟨lastCreated, counter, fun nothing => ?_, fun drawn inserted gives => ?_⟩
      · rw [counts]
        split
        · rfl
        · next carries =>
          rw [PlanQueue.giveBack_nothing]
          · rfl
          · tauto
      · have notCarried : ¬ (s.panel? c.number = none ∧ c.cause ≠ none) := by
          rintro ⟨gone, carried⟩
          rcases gives with ⟨p, listed⟩ | fresh
          · exact nomatch gone.symm.trans listed
          · exact carried fresh
        rw [counts, if_neg notCarried]
        exact PlanQueue.giveBack_entries drawn inserted

end Sys2Proof.Machine
end

section
/-! SUPPORT. The speed match and the strobes (R189 to R197), and a splice that reaches the origin's entry at once (R92). -/

namespace Sys2Proof.Machine

/-! ### Splices in the list -/

theorem insertFeature_split (f : Feature) (fs : List Feature) :
    ∃ before after, fs = before ++ after ∧ insertFeature f fs = before ++ f :: after := by
  induction fs with
  | nil => exact ⟨[], [], rfl, rfl⟩
  | cons x xs ih =>
    rw [insertFeature]
    split
    · obtain ⟨before, after, split, inserted⟩ := ih
      exact ⟨x :: before, after, by rw [split]; rfl, by rw [inserted]; rfl⟩
    · exact ⟨[], x :: xs, rfl, rfl⟩

theorem find?_modifyFirst_of_not {α : Type} {p q : α → Bool} {g : α → α} (apart : ∀ x, p x = true → q x = false ∧ q (g x) = false)
    (l : List α) : (modifyFirst p g l).find? q = l.find? q := by
  induction l with
  | nil => rfl
  | cons x xs ih =>
    by_cases due : p x = true
    · have taken : modifyFirst p g (x :: xs) = g x :: xs := if_pos due
      rw [taken, List.find?_cons, List.find?_cons, (apart x due).1, (apart x due).2]
    · have passes : modifyFirst p g (x :: xs) = x :: modifyFirst p g xs := if_neg due
      rw [passes, List.find?_cons, List.find?_cons, ih]

theorem mem_modifyFirst_of_not {α : Type} {p : α → Bool} {g : α → α} {a : α} (notTaken : p a = false) {l : List α} (mem : a ∈ l) :
    a ∈ modifyFirst p g l := by
  induction l with
  | nil => exact mem
  | cons x xs ih =>
    by_cases due : p x = true
    · have taken : modifyFirst p g (x :: xs) = g x :: xs := if_pos due
      rw [taken]
      rcases List.mem_cons.1 mem with rfl | later
      · exact nomatch notTaken.symm.trans due
      · exact List.mem_cons_of_mem _ later
    · have passes : modifyFirst p g (x :: xs) = x :: modifyFirst p g xs := if_neg due
      rw [passes]
      exact List.mem_cons.2 ((List.mem_cons.1 mem).imp id ih)

theorem isPanel_of_entryDue {s : State} {f : Feature} (due : s.entryDue f = true) (n : Nat) :
    f.isPanel n = false ∧ (markAtEntry f).isPanel n = false := by
  obtain ⟨body, entry, late, reached⟩ := f
  cases body with
  | panel p => exact nomatch due
  | splice m a => exact ⟨rfl, rfl⟩

theorem panel?_insertSplice {s t : State} {m : Nat} {entry : Pos}
    (features : t.map.features = insertFeature (spliceFeature m entry) s.map.features) (n : Nat) : t.panel? n = s.panel? n := by
  have is : (spliceFeature m entry).isPanel n = false := rfl
  rw [State.panel?, State.panel?, features]
  rcases find?_insertFeature (spliceFeature m entry) (fun f => f.isPanel n) s.map.features with ⟨found, -⟩ | ⟨isPanel, -⟩ | ⟨-, found⟩
  · rw [found]
  · exact nomatch isPanel
  · rw [found]

/-! ### What a splice at the entry leaves (R92, R93) -/

section
variable {s : State}

theorem State.noticeOf_events (n : Nat) (c : RejectCause) :
    (s.noticeOf n c).events = s.events ∨ (s.noticeOf n c).events = s.events.set .lateReject := by
  cases last : s.isLast with
  | true => exact .inr (by rw [State.noticeOf_last last]; rfl)
  | false =>
    cases room : s.handoffRoom with
    | true => exact .inl (by rw [State.noticeOf_room last room]; rfl)
    | false => exact .inr (by rw [State.noticeOf_full last room]; rfl)

/-- A cause recorded touches neither the places of the list nor its splices. -/
theorem State.caused_keeps (n : Nat) (c : RejectCause) :
    (s.caused n c).map.features.map (fun f => f.entry) = s.map.features.map (fun f => f.entry) ∧
      (s.caused n c).tracker.ref.map StretchRef.place = s.tracker.ref.map StretchRef.place ∧
      ∀ f ∈ s.map.features, f.panel? = none → f ∈ (s.caused n c).map.features := by
  refine ⟨modifyFirst_map _ _ _ (fun x _ => ?_) _, rejectRef_place s.tracker.ref n, fun f mem splice => ?_⟩
  · obtain ⟨b, e, o, r⟩ := x
    cases b <;> rfl
  · refine mem_modifyFirst_of_not ?_ mem
    obtain ⟨b, e, o, r⟩ := f
    cases b with
    | panel p => exact nomatch splice
    | splice m a => rfl

theorem State.spliceAtEntry_keeps :
    (∀ a : Event, s.events.has a = true → s.spliceAtEntry.events.has a = true) ∧
      s.spliceAtEntry.tracker.ref.map StretchRef.place = s.tracker.ref.map StretchRef.place ∧
      s.spliceAtEntry.map.features.map (fun f => f.entry) = s.map.features.map (fun f => f.entry) ∧
      ∀ f ∈ s.map.features, f.panel? = none → f ∈ s.spliceAtEntry.map.features := by
  by_cases idle : s.plan.lastCreated = none ∨ ∃ c p, s.plan.lastCreated = some c ∧ s.panel? c.number = some p ∧ p.cause ≠ none
  · rw [State.spliceAtEntry_idle idle]
    exact ⟨fun _ latched => latched, rfl, rfl, fun _ mem _ => mem⟩
  · obtain ⟨c, last⟩ := Option.ne_none_iff_exists'.1 fun absent => idle (.inl absent)
    cases found : s.panel? c.number with
    | some p =>
      have fresh : p.cause = none := by
        by_contra caused
        exact idle (.inr ⟨c, p, last, found, caused⟩)
      rw [State.spliceAtEntry_listed last found fresh]
      obtain ⟨entries, ref, splices⟩ := State.caused_keeps (s := s.givenBack c) c.number .spliced
      exact ⟨fun _ latched => latched, ref, entries, splices⟩
    | none =>
      cases atEnd : s.isLast with
      | true =>
        rw [State.spliceAtEntry_last last found atEnd]
        exact ⟨fun a latched => by rw [State.flag_events, EventLatch.has_set, latched, Bool.true_or], rfl, rfl, fun _ mem _ => mem⟩
      | false =>
        obtain ⟨-, -, events, -, map, -⟩ := State.noticing_same (s := s) c
        have tracker : (s.noticing c).tracker = s.tracker := by
          unfold State.noticing
          split <;> rfl
        rw [State.spliceAtEntry_gone last found atEnd]
        refine ⟨fun a latched => ?_, ?_, ?_, fun f mem _ => ?_⟩
        · rcases State.noticeOf_events (s := s.noticing c) c.number .spliced with same | late
          · rwa [same, events]
          · rw [late, events, EventLatch.has_set, latched, Bool.true_or]
        all_goals rw [State.noticeOf_frame]; dsimp only
        · rw [tracker]
        · rw [map]
        · rwa [map]

/-- The state with the first splice due at the entry marked. -/
def State.entryMarked (s : State) : State :=
  { s with map := { s.map with features := modifyFirst s.entryDue markAtEntry s.map.features } }

theorem State.entryMarked_panel? (n : Nat) : s.entryMarked.panel? n = s.panel? n :=
  congrArg (·.bind Feature.panel?) (find?_modifyFirst_of_not (q := fun f : Feature => f.isPanel n) (fun _ due => isPanel_of_entryDue due n) _)

theorem State.takeEntry_due {f : Feature} (mem : f ∈ s.map.features) (due : s.entryDue f = true) :
    s.takeEntry = s.entryMarked.spliceAtEntry := if_pos (List.any_eq_true.2 ⟨f, mem, due⟩)

theorem State.takeEntry_keeps :
    (∀ a : Event, s.events.has a = true → s.takeEntry.events.has a = true) ∧
      s.takeEntry.tracker.ref.map StretchRef.place = s.tracker.ref.map StretchRef.place ∧
      s.takeEntry.map.features.map (fun f => f.entry) = s.map.features.map fun f => f.entry := by
  by_cases due : s.map.features.any s.entryDue = true
  · have taken : s.takeEntry = s.entryMarked.spliceAtEntry := if_pos due
    rw [taken]
    obtain ⟨events, ref, entries, -⟩ := State.spliceAtEntry_keeps (s := s.entryMarked)
    refine ⟨events, ref, entries.trans (modifyFirst_map _ _ _ (fun x _ => ?_) _)⟩
    obtain ⟨b, e, o, r⟩ := x
    cases b <;> rfl
  · have stays : s.takeEntry = s := if_neg due
    rw [stays]
    exact ⟨fun _ latched => latched, rfl, rfl⟩

end

/-! ### v_new and the changeover (R189, R193) -/

section
variable {s : State}

theorem State.setVNew_frame (v : Nat) :
    s.setVNew v = { s with splice := { s.splice with vNew := v }, step1 := (s.setVNew v).step1 } := by
  by_cases same : v = s.splice.vNew
  · rw [State.setVNew, if_pos same, same]
  · rw [State.setVNew, if_neg same]

theorem State.setVNew_step1 (v : Nat) :
    (v = s.splice.vNew ∨ s.cfg.unwind = false → (s.setVNew v).step1 = s.step1) ∧
      (v ≠ s.splice.vNew → s.cfg.unwind = true →
        (s.setVNew v).step1 = s.step1.place (divisorFor s.cfg.newRollTicksPerStep v)) := by
  by_cases same : v = s.splice.vNew
  · rw [State.setVNew, if_pos same]
    exact ⟨fun _ => rfl, fun other => absurd same other⟩
  · rw [State.setVNew, if_neg same]
    exact ⟨fun stays => if_neg (by simp [stays.resolve_left same]), fun _ unwind => if_pos unwind⟩

variable {u : Splice} {side : Side}

theorem Splice.startPaste_rolls (active : (u.roll side).state = .active) (alone : (u.roll side.other).state ≠ .active) :
    u.startPaste.roll side = { u.roll side with state := .expiring } ∧
      u.startPaste.roll side.other = { u.roll side.other with state := .active } := by
  have over_ : u.changeOver =
      (u.setRoll side { u.roll side with state := .expiring }).setRoll side.other { u.roll side.other with state := .active } := by
    rw [Splice.changeOver, Splice.sideIn_eq active alone]
  rw [Splice.startPaste, over_]
  cases side <;> exact ⟨rfl, rfl⟩

theorem Splice.startPaste_same : u.startPaste.cut = u.cut ∧ u.startPaste.counter = nextNumber u.counter := by
  refine ⟨?_, rfl⟩
  show u.changeOver.cut = u.cut
  unfold Splice.changeOver
  split
  · next x _ => cases x <;> rfl
  · rfl

/-- PASTING is entered, before the SPLICE is offered. -/
def State.pasted (s : State) : State := State.setVNew { s with splice := s.splice.startPaste } s.localSpeed

theorem State.pasted_frame : s.pasted = { s with splice := s.pasted.splice, step1 := s.pasted.step1 } := by
  have frame := State.setVNew_frame (s := { s with splice := s.splice.startPaste }) s.localSpeed
  rw [State.pasted, frame]

theorem State.pasted_splice : s.pasted.splice = { s.splice.startPaste with vNew := s.localSpeed } :=
  congrArg State.splice (State.setVNew_frame (s := { s with splice := s.splice.startPaste }) s.localSpeed)

/-- The state with the SPLICE offered P_dist ahead. -/
def State.spliceOffered (s : State) : State :=
  s.pasted.offerFeature (spliceFeature s.splice.counter (ahead s.tracker.position s.cfg.pDist))

theorem State.completeMatch_eq : s.completeMatch = if s.cfg.pDist = 0 then s.spliceOffered.takeEntry else s.spliceOffered := rfl

theorem State.spliceOffered_room (room : s.map.features.length < 32) :
    s.spliceOffered =
      { s with
        splice := s.pasted.splice
        step1 := s.pasted.step1
        map :=
          { s.map with
            features := insertFeature (spliceFeature s.splice.counter (ahead s.tracker.position s.cfg.pDist)) s.map.features }
        tracker := { s.tracker with guard := some (ahead s.tracker.position s.cfg.pDist) } } := by
  have frame := State.pasted_frame (s := s)
  rw [State.spliceOffered, State.offerFeature_splice (by rw [frame]; exact room)]
  rw [frame]

theorem State.spliceOffered_full (full : 32 ≤ s.map.features.length) :
    s.spliceOffered.events.has .mapFull = true ∧ s.spliceOffered.tracker.guard = s.tracker.guard ∧
      s.spliceOffered.tracker.ref = none ∧
      s.spliceOffered.map.features.map (fun f => f.entry) = s.map.features.map (fun f => f.entry) ∧
      s.spliceOffered.splice = s.pasted.splice := by
  have frame := State.pasted_frame (s := s)
  have map : s.pasted.map = s.map := (congrArg State.map frame :)
  have tracker : s.pasted.tracker = s.tracker := (congrArg State.tracker frame :)
  have notMatching : s.pasted.splice.state ≠ .matching := by
    rw [State.pasted_splice]
    exact (nofun : SpliceState.pasting ≠ .matching)
  rw [State.spliceOffered, State.offerFeature_full (by rw [map]; exact full)]
  refine ⟨State.latch_has, ?_, rfl, ?_, State.latch_keepsSplice notMatching .mapFull⟩
  · rw [← tracker]
    simp
  · rw [← map]
    exact State.latch_entries _ _

theorem State.completeMatch_splice : s.completeMatch.splice = s.pasted.splice := by
  have offered : s.spliceOffered.splice = s.pasted.splice := by
    rcases Nat.lt_or_ge s.map.features.length 32 with room | full
    · rw [State.spliceOffered_room room]
    · exact (State.spliceOffered_full full).2.2.2.2
  rw [State.completeMatch_eq]
  split
  · simpa using offered
  · exact offered

/-! ### The end of CUT (R194, R187) -/

/-- The state after CUT, before the arming test. -/
def State.cutEnded (s : State) : State :=
  { s.setVNew 0 with splice := { (s.setVNew 0).splice.dropExpiring with state := .idle, cut := false, strobeTimer := none } }

theorem State.cutEnded_splice (expiring : (s.splice.roll side).state = .expiring)
    (alone : (s.splice.roll side.other).state ≠ .expiring) :
    s.cutEnded.splice =
      { s.splice.setRoll side Roll.none with vNew := 0, state := .idle, cut := false, strobeTimer := none } := by
  have frame := congrArg State.splice (State.setVNew_frame (s := s) 0)
  have found : (s.setVNew 0).splice.sideIn .expiring = some side := by
    rw [frame]
    exact Splice.sideIn_eq (u := { s.splice with vNew := 0 }) (by cases side <;> exact expiring) (by cases side <;> exact alone)
  have drops : (s.setVNew 0).splice.dropExpiring = { s.splice with vNew := 0 }.setRoll side Roll.none := by
    rw [Splice.dropExpiring, found, frame]
  rw [State.cutEnded, drops]
  cases side <;> rfl

theorem State.cutEnded_frame : s.cutEnded = { s with splice := s.cutEnded.splice, step1 := s.cutEnded.step1 } := by
  have frame := State.setVNew_frame (s := s) 0
  rw [State.cutEnded, frame]

end

/-! ### A SPLICE that reaches the entry with its offer (R92, R193) -/

section
variable {s : State}

/-- With a P_dist of 0 the offered SPLICE is due at the entry. -/
theorem State.spliceOffered_due (room : s.map.features.length < 32) (near : s.cfg.pDist = 0) :
    spliceFeature s.splice.counter s.tracker.position ∈ s.spliceOffered.map.features ∧
      s.spliceOffered.entryDue (spliceFeature s.splice.counter s.tracker.position) = true := by
  have here : ahead s.tracker.position s.cfg.pDist = s.tracker.position := by rw [near, ahead]; exact BitVec.add_zero _
  have offered := State.spliceOffered_room room
  rw [here] at offered
  rw [offered]
  refine ⟨mem_insertFeature.2 (.inl rfl), ?_⟩
  rw [State.entryDue_splice (n := s.splice.counter) rfl]
  exact decide_eq_true (by simp [spliceFeature, travel])

theorem State.completeMatch_atOnce (room : s.map.features.length < 32) (near : s.cfg.pDist = 0) :
    s.completeMatch = s.spliceOffered.entryMarked.spliceAtEntry := by
  obtain ⟨mem, due⟩ := State.spliceOffered_due room near
  rw [State.completeMatch_eq, if_pos near, State.takeEntry_due mem due]

theorem State.spliceOffered_panel? (room : s.map.features.length < 32) (n : Nat) :
    s.spliceOffered.entryMarked.panel? n = s.panel? n := by
  rw [State.entryMarked_panel?]
  exact panel?_insertSplice (congrArg (fun t : State => t.map.features) (State.spliceOffered_room room)) n

/-- The offered SPLICE, where no earlier one is due, is marked in the list. -/
theorem State.completeMatch_marks (room : s.map.features.length < 32) (near : s.cfg.pDist = 0)
    (earlier : ∀ g ∈ s.map.features, ∀ m, g.body = .splice m false → travel s.tracker.position g.entry < 0) :
    ∃ g ∈ s.completeMatch.map.features, g.body = .splice s.splice.counter true ∧ g.entry = s.tracker.position := by
  have here : ahead s.tracker.position s.cfg.pDist = s.tracker.position := by rw [near, ahead]; exact BitVec.add_zero _
  have offered := State.spliceOffered_room room
  rw [here] at offered
  obtain ⟨before, after, split, inserted⟩ :=
    insertFeature_split (spliceFeature s.splice.counter s.tracker.position) s.map.features
  have features : s.spliceOffered.map.features = before ++ spliceFeature s.splice.counter s.tracker.position :: after :=
    (congrArg (fun t : State => t.map.features) offered).trans inserted
  have position : s.spliceOffered.tracker.position = s.tracker.position := (congrArg (fun t : State => t.tracker.position) offered :)
  have taken := State.takeEntry_first (n := s.splice.counter) features rfl (by rw [position]; simp [spliceFeature, travel])
    (by rw [position]; exact fun g mem => earlier g (by rw [split]; exact List.mem_append_left _ mem))
  rw [State.completeMatch_eq, if_pos near, taken]
  refine ⟨{ spliceFeature s.splice.counter s.tracker.position with body := .splice s.splice.counter true }, ?_, rfl, rfl⟩
  exact State.spliceAtEntry_keeps.2.2.2 _ (List.mem_append_right _ (List.mem_cons_self ..)) rfl

/-- The last created panel of the list takes SPLICED, its first cause alone. -/
theorem State.spliceAtEntry_lists {c : CreatedPanel} (last : s.plan.lastCreated = some c) {p : Panel}
    (listed : s.panel? c.number = some p) :
    s.spliceAtEntry.panel? c.number = some { p with cause := some (p.cause.getD .spliced) } ∧ s.spliceAtEntry.link = s.link := by
  cases cause : p.cause with
  | some k =>
    rw [State.spliceAtEntry_idle (.inr ⟨c, p, last, listed, by rw [cause]; nofun⟩), Option.getD_some, ← cause]
    exact ⟨listed, rfl⟩
  | none =>
    rw [State.spliceAtEntry_listed last listed cause,
      State.caused_panel?_self (s := s.givenBack c) (show (s.givenBack c).panel? c.number = some p from listed), cause]
    exact ⟨rfl, rfl⟩

theorem State.spliceAtEntry_notices {c : CreatedPanel} (last : s.plan.lastCreated = some c) (gone : s.panel? c.number = none)
    (notLast : s.isLast = false) (room : s.handoffRoom = true) :
    s.spliceAtEntry.link.handoffFifo.map (fun x => x.payload) =
      s.link.handoffFifo.map (fun x => x.payload) ++ [.handoffReject (BitVec.ofNat 32 c.number) 2] := by
  obtain ⟨isLast, link, -, -, -, -, -, room'⟩ := State.noticing_same (s := s) c
  rw [State.spliceAtEntry_gone last gone notLast, State.noticeOf_room (isLast.trans notLast) (room'.trans room)]
  simp [State.pushHandoff, link, RejectCause.code]

end

theorem exec_matchTimerExpiry {s : State} (matching : s.splice.state = .matching) (timer : s.splice.matchTimer ≠ none) :
    exec .matchTimerExpiry s = .next s.completeMatch := congrArg Host.Outcome.next (if_pos ⟨matching, timer⟩)

theorem exec_cutStrobeEnd {s : State} (cutting : s.splice.state = .cutting) (timer : s.splice.strobeTimer ≠ none) :
    exec .cutStrobeEnd s = .next s.cutEnded.armTest := congrArg Host.Outcome.next (if_pos ⟨cutting, timer⟩)

end Sys2Proof.Machine
end

section
/-! SUPPORT. Match, paste and cut assembled (R189 to R197). -/

namespace Sys2Proof.Machine

section
variable {s : State} {side : Side}

/-- The new roll short already at the end of CUT arms the splice; its expired one is not LOADED. -/
theorem State.cutEnded_armTest {r : Nat} (expiring : (s.splice.roll side).state = .expiring)
    (active : (s.splice.roll side.other).state = .active) (remaining : (s.splice.roll side.other).remaining = some r) :
    s.cutEnded.armTest = if r ≤ s.cfg.spliceAt then s.cutEnded.armed else s.cutEnded := by
  have alone : (s.splice.roll side.other).state ≠ .expiring := by rw [active]; nofun
  have splice := State.cutEnded_splice expiring alone
  have other : s.cutEnded.splice.roll side.other = s.splice.roll side.other := by rw [splice]; cases side <;> rfl
  have gone : s.cutEnded.splice.roll side = Roll.none := by rw [splice]; cases side <;> rfl
  have idle : s.cutEnded.splice.state = .idle := by rw [splice]
  have isActive : (s.cutEnded.splice.roll side.other).state = .active := by rw [other]; exact active
  have onlyOne : (s.cutEnded.splice.roll side.other.other).state ≠ .active := by rw [Side.other_other, gone]; nofun
  have cfg : s.cutEnded.cfg = s.cfg := (congrArg State.cfg State.cutEnded_frame :)
  split
  · next short =>
    rw [State.armTest_due idle isActive onlyOne (by rw [other]; exact remaining) (by rw [cfg]; exact short)]
    refine State.tryMatching_stays fun ⟨_, loaded, _⟩ => ?_
    have sameRoll (x : Side) : s.cutEnded.armed.splice.roll x = s.cutEnded.splice.roll x := by cases x <;> rfl
    rw [Splice.incomingLoaded_eq (side := side.other) (nofun : SpliceState.armed ≠ .pasting) (nofun : SpliceState.armed ≠ .cutting)
      (by rw [sameRoll]; exact isActive) (by rw [sameRoll]; exact onlyOne), Side.other_other, sameRoll, gone] at loaded
    exact nomatch loaded
  · next long => exact State.armTest_long isActive onlyOne (by rw [other]; exact remaining) (by rw [cfg]; omega)

theorem State.cutEnded_armTest_none (expiring : (s.splice.roll side).state = .expiring)
    (empty : (s.splice.roll side.other).state = .empty) : s.cutEnded.armTest = s.cutEnded := by
  have splice := State.cutEnded_splice expiring (by rw [empty]; nofun)
  have other : s.cutEnded.splice.roll side.other = s.splice.roll side.other := by rw [splice]; cases side <;> rfl
  have gone : s.cutEnded.splice.roll side = Roll.none := by rw [splice]; cases side <;> rfl
  have standing : s.cutEnded.splice.sideIn .active = none :=
    Splice.sideIn_none (side := side) (by rw [gone]; nofun) (by rw [other, empty]; nofun)
  refine if_neg fun ⟨_, due⟩ => ?_
  rw [State.armingDue, standing] at due
  exact nomatch due

end

/-- Settles O52. -/
theorem matchPasteAndCut : Obligations.MatchPasteAndCut := by
  refine fun s => ⟨fun matching => ⟨fun timer => ?_, fun timer side active loaded => ?_, fun timer => ?_⟩, fun pasting timer => ?_,
    fun cutting timer side r expiring active remaining => ?_, fun cutting timer side expiring empty => ?_⟩
  · obtain ⟨same, placed⟩ := State.setVNew_step1 (s := s) s.rampedNew
    refine ⟨s.setVNew s.rampedNew, congrArg Host.Outcome.next (if_pos ⟨matching, timer⟩), State.setVNew_vNew _, ?_, ?_, ?_⟩
    · rw [State.setVNew_vNew]
      exact same
    · rw [State.setVNew_vNew]
      exact placed
    · rw [State.setVNew_vNew]
      exact State.setVNew_frame _
  · have alone : (s.splice.roll side.other).state ≠ .active := by rw [loaded]; nofun
    obtain ⟨old, new⟩ := Splice.startPaste_rolls active alone
    obtain ⟨cut, counter⟩ := Splice.startPaste_same (u := s.splice)
    have splice : s.completeMatch.splice = { s.splice.startPaste with vNew := s.localSpeed } :=
      State.completeMatch_splice.trans State.pasted_splice
    have rolls (x : Side) : s.completeMatch.splice.roll x = s.splice.startPaste.roll x := by rw [splice]; cases x <;> rfl
    refine ⟨s.completeMatch, exec_matchTimerExpiry matching timer, by rw [splice]; rfl, by rw [splice]; rfl, by rw [splice]; exact cut,
      by rw [splice]; rfl, by rw [splice]; rfl, by rw [splice]; rfl, by rw [splice]; rfl, by rw [rolls, old], by rw [rolls, new],
      by rw [splice], by rw [splice]; exact counter, fun room far => ?_, fun room near origin => ?_, fun full => ?_⟩
    · have offered : s.completeMatch = s.spliceOffered := if_neg far
      rw [offered, State.spliceOffered_room room]
      exact ⟨rfl, rfl⟩
    · have here : ahead s.tracker.position s.cfg.pDist = s.tracker.position := by rw [near, ahead]; exact BitVec.add_zero _
      have offered := State.spliceOffered_room room
      rw [here] at offered
      have lastCreated : s.spliceOffered.plan.lastCreated = s.plan.lastCreated :=
        (congrArg (fun t : State => t.plan.lastCreated) offered :)
      have link : s.spliceOffered.link = s.link := (congrArg State.link offered :)
      have events : s.spliceOffered.events = s.events := (congrArg State.events offered :)
      have isLast : s.spliceOffered.isLast = s.isLast :=
        State.isLast_congr (congrArg State.boot offered :) (congrArg (fun t : State => t.line.peers) offered :)
      have step1 : s.completeMatch.step1 = s.pasted.step1 := by
        rw [State.completeMatch_atOnce room near]
        exact (by simp [State.entryMarked] : s.spliceOffered.entryMarked.spliceAtEntry.step1 = s.spliceOffered.step1).trans
          (congrArg State.step1 offered :)
      refine ⟨⟨s.spliceOffered, ?_, ?_⟩, State.completeMatch_marks room near, fun c last => ⟨fun p listed => ?_,
        fun gone notLast few single => ?_⟩⟩
      · have fits : s.spliceOffered.cfg.origin = true := by rw [(congrArg State.cfg offered :)]; exact origin
        exact congrArg Host.Outcome.next ((if_pos fits).trans (if_pos near).symm)
      · rw [State.completeMatch_splice, step1]
        exact offered
      · rw [State.completeMatch_atOnce room near]
        obtain ⟨found, linked⟩ := State.spliceAtEntry_lists (s := s.spliceOffered.entryMarked) (lastCreated.trans last)
          ((State.spliceOffered_panel? room _).trans listed)
        exact ⟨found, linked.trans link⟩
      · have noticed := State.spliceAtEntry_notices (s := s.spliceOffered.entryMarked) (lastCreated.trans last)
          ((State.spliceOffered_panel? room _).trans gone) (isLast.trans notLast)
          (State.handoffRoom_iff.2 ⟨(congrArg (fun l : Link => l.handoffFifo.length < 8) link).mpr few,
            (congrArg (EventLatch.has · .duplicateIndex) events).trans single⟩)
        rw [State.completeMatch_atOnce room near, noticed]
        exact congrArg (fun l : Link => l.handoffFifo.map (fun x => x.payload) ++ _) link
    · obtain ⟨latched, guard, ref, entries, -⟩ := State.spliceOffered_full full
      rw [State.completeMatch_eq]
      split
      · obtain ⟨keeps, sameRef, sameEntries⟩ := State.takeEntry_keeps (s := s.spliceOffered)
        refine ⟨keeps _ latched, by simpa using guard, Option.map_eq_none_iff.1 (sameRef.trans ?_), sameEntries.trans entries⟩
        rw [ref]
        rfl
      · exact ⟨latched, guard, ref, entries⟩
  · refine ⟨_, congrArg Host.Outcome.next (if_pos ⟨matching, timer⟩), ?_⟩
    rw [State.leaveMatching_eq]
    rfl
  · exact congrArg Host.Outcome.next (if_pos ⟨pasting, timer⟩)
  · have splice := State.cutEnded_splice expiring (by rw [active]; nofun)
    have frame := State.cutEnded_frame (s := s)
    refine ⟨_, exec_cutStrobeEnd cutting timer, ?_⟩
    rw [State.cutEnded_armTest expiring active remaining]
    split
    · next short =>
      have armed : s.cutEnded.armed.splice =
          { s.splice.setRoll side Roll.none with vNew := 0, state := .armed, cut := false, strobeTimer := none } := by
        rw [State.armed, splice]
      rw [armed]
      refine ⟨by cases side <;> rfl, by cases side <;> rfl, rfl, rfl, rfl, rfl, by cases side <;> rfl, ?_⟩
      rw [← armed, State.armed, frame]
    · next long =>
      rw [splice]
      refine ⟨by cases side <;> rfl, by cases side <;> rfl, rfl, rfl, rfl, rfl, by cases side <;> rfl, ?_⟩
      rw [← splice]
      exact frame
  · have splice := State.cutEnded_splice expiring (by rw [empty]; nofun)
    refine ⟨_, exec_cutStrobeEnd cutting timer, ?_⟩
    rw [State.cutEnded_armTest_none expiring empty, splice]
    refine ⟨by cases side <;> rfl, by cases side <;> rfl, rfl, rfl, rfl, rfl, ?_⟩
    rw [← splice]
    exact State.cutEnded_frame

end Sys2Proof.Machine
end

section
/-! SUPPORT. Frames as they are built and as they are accepted (R7 to R9). -/

namespace Sys2Proof

/-! ### Fields of bytes (R7) -/

theorem join16_extract (x : BitVec 16) : join16 (x.extractLsb' 8 8) (x.extractLsb' 0 8) = x := by
  refine BitVec.eq_of_getLsbD_eq fun i hi => ?_
  simp only [join16, BitVec.getLsbD_append, BitVec.getLsbD_extractLsb']
  by_cases low : i < 8
  · simp [low]
  · simp [low, show i - 8 < 8 by omega, show 8 + (i - 8) = i by omega]

theorem join24_extract (x : BitVec 24) : join24 (x.extractLsb' 16 8) (x.extractLsb' 8 8) (x.extractLsb' 0 8) = x := by
  refine BitVec.eq_of_getLsbD_eq fun i hi => ?_
  simp only [join24, BitVec.getLsbD_append, BitVec.getLsbD_extractLsb']
  by_cases low : i < 8
  · simp [low]
  · by_cases mid : i < 16
    · simp [low, show i - 8 < 8 by omega, show 8 + (i - 8) = i by omega]
    · simp [low, show ¬ i - 8 < 8 by omega, show i - 8 - 8 < 8 by omega, show 16 + (i - 8 - 8) = i by omega]

theorem join32_extract (x : BitVec 32) :
    join32 (x.extractLsb' 24 8) (x.extractLsb' 16 8) (x.extractLsb' 8 8) (x.extractLsb' 0 8) = x := by
  refine BitVec.eq_of_getLsbD_eq fun i hi => ?_
  simp only [join32, BitVec.getLsbD_append, BitVec.getLsbD_extractLsb']
  by_cases low : i < 8
  · simp [low]
  · by_cases mid : i < 16
    · simp [low, show i - 8 < 8 by omega, show 8 + (i - 8) = i by omega]
    · by_cases high : i < 24
      · simp [low, show ¬ i - 8 < 8 by omega, show i - 8 - 8 < 8 by omega, show 16 + (i - 8 - 8) = i by omega]
      · simp [low, show ¬ i - 8 < 8 by omega, show ¬ i - 8 - 8 < 8 by omega, show i - 8 - 8 - 8 < 8 by omega,
          show 24 + (i - 8 - 8 - 8) = i by omega]

theorem bytes16_join (a b : Byte) : bytes16 (join16 a b) = [a, b] := by
  have high : (join16 a b).extractLsb' 8 8 = a := by
    refine BitVec.eq_of_getLsbD_eq fun i hi => ?_
    rw [join16]
    simp only [BitVec.getLsbD_extractLsb', BitVec.getLsbD_append]
    simp [hi]
  have low : (join16 a b).extractLsb' 0 8 = b := by
    refine BitVec.eq_of_getLsbD_eq fun i hi => ?_
    rw [join16]
    simp only [BitVec.getLsbD_extractLsb', BitVec.getLsbD_append]
    simp [hi]
  rw [bytes16, high, low]

theorem bytes24_join (a b c : Byte) : bytes24 (join24 a b c) = [a, b, c] := by
  have high : (join24 a b c).extractLsb' 16 8 = a := by
    refine BitVec.eq_of_getLsbD_eq fun i hi => ?_
    rw [join24]
    simp only [BitVec.getLsbD_extractLsb', BitVec.getLsbD_append]
    simp [hi, show ¬ 16 + i < 8 by omega, show ¬ 16 + i - 8 < 8 by omega, show 16 + i - 8 - 8 = i by omega]
  have mid : (join24 a b c).extractLsb' 8 8 = b := by
    refine BitVec.eq_of_getLsbD_eq fun i hi => ?_
    rw [join24]
    simp only [BitVec.getLsbD_extractLsb', BitVec.getLsbD_append]
    simp [hi]
  have low : (join24 a b c).extractLsb' 0 8 = c := by
    refine BitVec.eq_of_getLsbD_eq fun i hi => ?_
    rw [join24]
    simp only [BitVec.getLsbD_extractLsb', BitVec.getLsbD_append]
    simp [hi]
  rw [bytes24, high, mid, low]

theorem bytes32_join (a b c d : Byte) : bytes32 (join32 a b c d) = [a, b, c, d] := by
  have top : (join32 a b c d).extractLsb' 24 8 = a := by
    refine BitVec.eq_of_getLsbD_eq fun i hi => ?_
    rw [join32]
    simp only [BitVec.getLsbD_extractLsb', BitVec.getLsbD_append]
    simp [hi, show ¬ 24 + i < 8 by omega, show ¬ 24 + i - 8 < 8 by omega,
      show ¬ 24 + i - 8 - 8 < 8 by omega, show 24 + i - 8 - 8 - 8 = i by omega]
  have high : (join32 a b c d).extractLsb' 16 8 = b := by
    refine BitVec.eq_of_getLsbD_eq fun i hi => ?_
    rw [join32]
    simp only [BitVec.getLsbD_extractLsb', BitVec.getLsbD_append]
    simp [hi, show ¬ 16 + i < 8 by omega, show ¬ 16 + i - 8 < 8 by omega, show 16 + i - 8 - 8 = i by omega]
  have mid : (join32 a b c d).extractLsb' 8 8 = c := by
    refine BitVec.eq_of_getLsbD_eq fun i hi => ?_
    rw [join32]
    simp only [BitVec.getLsbD_extractLsb', BitVec.getLsbD_append]
    simp [hi]
  have low : (join32 a b c d).extractLsb' 0 8 = d := by
    refine BitVec.eq_of_getLsbD_eq fun i hi => ?_
    rw [join32]
    simp only [BitVec.getLsbD_extractLsb', BitVec.getLsbD_append]
    simp [hi]
  rw [bytes32, top, high, mid, low]

/-! ### Kinds and the class byte (R7, R8) -/

theorem FrameKind.ofCode_code (k : FrameKind) : FrameKind.ofCode k.code = some k := by cases k <;> rfl

theorem FrameKind.code_of_ofCode {c : Byte} {k : FrameKind} (known : FrameKind.ofCode c = some k) : k.code = c :=
  eq_of_beq (List.find?_some known :)

theorem classByte_fields (cls : BitVec 2) (sender : BitVec 4) :
    (classByte cls sender).extractLsb' 4 2 = 0 ∧ (classByte cls sender).extractLsb' 6 2 = cls ∧
      (classByte cls sender).extractLsb' 0 4 = sender := by
  refine ⟨?_, ?_, ?_⟩ <;> refine BitVec.eq_of_getLsbD_eq fun i hi => ?_
  · rw [classByte]
    simp only [BitVec.getLsbD_extractLsb', BitVec.getLsbD_append]
    simp [hi]
  · rw [classByte]
    simp only [BitVec.getLsbD_extractLsb', BitVec.getLsbD_append]
    simp [hi, show ¬ 6 + i < 4 by omega, show ¬ 6 + i - 4 < 2 by omega, show 6 + i - 4 - 2 = i by omega]
  · rw [classByte]
    simp only [BitVec.getLsbD_extractLsb', BitVec.getLsbD_append]
    simp [hi]

/-! ### Entries of a PAT_STEP (R8) -/

/-- An entry's bytes are read back as the entry, whatever follows. -/
theorem parseEntry_entryBytes (e : RawEntry) (rest : List Byte) : parseEntry (entryBytes e ++ rest) = some (e, rest) := by
  cases e with
  | fold hand f d r df dd => cases hand <;> simp [entryBytes, parseEntry, bytes16, handBit, join16_extract]
  | flat l => simp [entryBytes, parseEntry, bytes24, join24_extract]
  | group c => simp [entryBytes, parseEntry]
  | close => simp [entryBytes, parseEntry]
  | mirror => simp [entryBytes, parseEntry]

theorem entryBytes_ne_nil (e : RawEntry) : entryBytes e ≠ [] := by cases e <;> nofun

theorem parseEntries_entryBytes {es : List RawEntry} (few : es.length = 1 ∨ es.length = 2) :
    parseEntries (es.flatMap entryBytes) = some es := by
  match es, few with
  | [e], _ =>
    have read := parseEntry_entryBytes e []
    rw [List.append_nil] at read
    simp [parseEntries, read]
  | [e, e'], _ =>
    have read := parseEntry_entryBytes e (entryBytes e')
    have readNext := parseEntry_entryBytes e' []
    rw [List.append_nil] at readNext
    obtain ⟨b, bs, bytes⟩ := List.exists_cons_of_ne_nil (entryBytes_ne_nil e')
    rw [bytes] at read readNext
    simp [parseEntries, bytes, read, readNext]

/-- What the head byte of an entry read from the line has to be: the entry's kind, and a FOLD's hand. -/
def EntryHead (h : Byte) (e : RawEntry) : Prop :=
  h >>> 4 = ((entryBytes e).headD 0) >>> 4 ∧
    ∀ hand face depth rep gradeFace gradeDepth, e = .fold hand face depth rep gradeFace gradeDepth →
      (h.getLsbD 0 = true ↔ hand = .right)

theorem shifted_eq {h : Byte} {n : Nat} (kind : (h >>> 4).toNat = n) (small : n < 256) : h >>> 4 = BitVec.ofNat 8 n :=
  BitVec.eq_of_toNat_eq (by rw [kind, BitVec.toNat_ofNat, Nat.mod_eq_of_lt small])

theorem parseEntry_some {bytes more : List Byte} {e : RawEntry} (read : parseEntry bytes = some (e, more)) :
    ∃ h, bytes = h :: ((entryBytes e).tail ++ more) ∧ EntryHead h e := by
  cases bytes with
  | nil => exact nomatch read
  | cons h rest =>
    refine ⟨h, ?_⟩
    unfold parseEntry at read
    dsimp only at read
    split at read
    · next kind =>
      split at read
      · cases read
        have shifted := shifted_eq kind (by decide)
        refine ⟨by simp [entryBytes, bytes16_join], ?_, fun hand face depth rep gf gd same => ?_⟩
        · rw [shifted]
          cases h.getLsbD 0 <;> simp [entryBytes, handBit]
        · cases same
          cases h.getLsbD 0 <;> simp
      · exact nomatch read
    · next kind =>
      split at read
      · cases read
        exact ⟨by simp [entryBytes, bytes24_join], (shifted_eq kind (by decide)).trans (by simp [entryBytes]), nofun⟩
      · exact nomatch read
    · next kind =>
      split at read
      · cases read
        exact ⟨rfl, (shifted_eq kind (by decide)).trans (by simp [entryBytes]), nofun⟩
      · exact nomatch read
    · next kind =>
      cases read
      exact ⟨rfl, (shifted_eq kind (by decide)).trans (by simp [entryBytes]), nofun⟩
    · next kind =>
      cases read
      exact ⟨rfl, (shifted_eq kind (by decide)).trans (by simp [entryBytes]), nofun⟩
    · exact nomatch read

theorem parseEntries_some {bytes : List Byte} {es : List RawEntry} (read : parseEntries bytes = some es) :
    (es.length = 1 ∨ es.length = 2) ∧ (es.flatMap entryBytes).length = bytes.length ∧
      ∃ heads : List Byte, heads.length = es.length ∧
        bytes = (heads.zip es).flatMap (fun (h, e) => h :: (entryBytes e).tail) ∧
        ∀ h e, (h, e) ∈ heads.zip es → EntryHead h e := by
  have positive (e : RawEntry) : 0 < (entryBytes e).length := List.length_pos_iff.2 (entryBytes_ne_nil e)
  unfold parseEntries at read
  split at read
  · exact nomatch read
  · next e one =>
    cases read
    obtain ⟨h, bytes, head⟩ := parseEntry_some one
    refine ⟨.inl rfl, by simp [bytes]; have := positive e; omega, [h], rfl, by simp [bytes], fun h' e' mem => ?_⟩
    obtain ⟨rfl, rfl⟩ := Prod.mk.inj (List.mem_singleton.1 mem)
    exact head
  · next e more _ one =>
    split at read
    · next e' two =>
      cases read
      obtain ⟨h, bytes, head⟩ := parseEntry_some one
      obtain ⟨h', bytes', head'⟩ := parseEntry_some two
      refine ⟨.inr rfl, by simp [bytes, bytes']; have := positive e; have := positive e'; omega, [h, h'], rfl, by simp [bytes, bytes'],
        fun x y mem => ?_⟩
      rcases List.mem_cons.1 mem with same | rest
      · obtain ⟨rfl, rfl⟩ := Prod.mk.inj same
        exact head
      · obtain ⟨rfl, rfl⟩ := Prod.mk.inj (List.mem_singleton.1 rest)
        exact head'
    · exact nomatch read

end Sys2Proof
end

section
/-! SUPPORT. Payloads read back, and the six tests of a frame (R8, R9). -/

namespace Sys2Proof

/-! ### Payloads (R8) -/

theorem parsePayload_payloadBytes {p : Payload} (fits : p.wellFormed = true) : parsePayload p.kind (payloadBytes p) = some p := by
  cases p with
  | handoffPanel n i l c =>
    simp only [Payload.wellFormed, Bool.and_eq_true, bne_iff_ne, decide_eq_true_eq] at fits
    obtain ⟨notZero, known⟩ := fits
    simpa [parsePayload, payloadBytes, Payload.kind, bytes16, bytes32, join16_extract, join32_extract, known] using notZero
  | handoffSplice n =>
    simp only [Payload.wellFormed, bne_iff_ne] at fits
    simpa [parsePayload, payloadBytes, Payload.kind, bytes32, join32_extract] using fits
  | handoffReject n c =>
    simp only [Payload.wellFormed, Bool.and_eq_true, bne_iff_ne, decide_eq_true_eq] at fits
    obtain ⟨notZero, known⟩ := fits
    simpa [parsePayload, payloadBytes, Payload.kind, bytes32, join32_extract, known] using notZero
  | patStep t s es =>
    simp only [Payload.wellFormed, Bool.and_eq_true, Bool.or_eq_true, beq_iff_eq] at fits
    simp [parsePayload, payloadBytes, Payload.kind, bytes16, join16_extract, parseEntries_entryBytes fits.1]
  | _ => simp [parsePayload, payloadBytes, Payload.kind, bytes16, bytes24, bytes32, join16_extract, join24_extract, join32_extract]

theorem payloadBytes_length {p : Payload} (fits : p.wellFormed = true) : (payloadBytes p).length ≤ 16 := by
  cases p with
  | patStep t s es =>
    simp only [Payload.wellFormed, Bool.and_eq_true, decide_eq_true_eq] at fits
    simp only [payloadBytes, bytes16, List.length_append, List.length_cons, List.length_nil]
    omega
  | report t g p c =>
    simp only [Payload.wellFormed, decide_eq_true_eq] at fits
    simp only [payloadBytes, bytes16, List.length_append, List.length_cons, List.length_nil]
    omega
  | _ => simp [payloadBytes, bytes16, bytes24, bytes32]

section
variable {kind : FrameKind} {bytes : List Byte} {p : Payload}

theorem parsePayload_kind (read : parsePayload kind bytes = some p) : p.kind = kind := by
  cases kind with
  | handoff =>
    dsimp only [parsePayload] at read
    (repeat' split at read) <;> cases read <;> rfl
  | patStep =>
    dsimp only [parsePayload] at read
    split at read
    · obtain ⟨es, -, rfl⟩ := Option.map_eq_some_iff.1 read
      rfl
    · exact nomatch read
  | _ =>
    dsimp only [parsePayload] at read
    split at read
    · cases read
      rfl
    · exact nomatch read

/-- Save for a PAT_STEP's entry bytes, a payload read is sent as it was read. -/
theorem parsePayload_bytes (read : parsePayload kind bytes = some p) (notStep : kind ≠ .patStep) : bytes = payloadBytes p := by
  cases kind with
  | handoff =>
    dsimp only [parsePayload] at read
    (repeat' split at read) <;> cases read
    · next fits => simp [payloadBytes, bytes32_join, bytes16_join, fits]
    · next fits => simp [payloadBytes, bytes32_join, fits]
    · next fits => simp [payloadBytes, bytes32_join, fits]
  | patStep => exact absurd rfl notStep
  | _ =>
    dsimp only [parsePayload] at read
    split at read
    · cases read
      simp [payloadBytes, bytes16_join, bytes24_join, bytes32_join]
    · exact nomatch read

theorem parsePayload_patStep (read : parsePayload .patStep bytes = some p) :
    ∃ t1 t0 s rest es, bytes = t1 :: t0 :: s :: rest ∧ parseEntries rest = some es ∧ p = .patStep (join16 t1 t0) s es := by
  dsimp only [parsePayload] at read
  split at read
  · next t1 t0 s rest =>
    obtain ⟨es, entries, rfl⟩ := Option.map_eq_some_iff.1 read
    exact ⟨t1, t0, s, rest, es, rfl, entries, rfl⟩
  · exact nomatch read

theorem parsePayload_wellFormed (read : parsePayload kind bytes = some p) (short : bytes.length ≤ 16) : p.wellFormed = true := by
  cases kind with
  | handoff =>
    dsimp only [parsePayload] at read
    (repeat' split at read) <;> cases read
    all_goals
      next fits => simpa [Payload.wellFormed] using fits.2
  | patStep =>
    obtain ⟨t1, t0, s, rest, es, rfl, entries, rfl⟩ := parsePayload_patStep read
    obtain ⟨few, length, -⟩ := parseEntries_some entries
    simp only [List.length_cons] at short
    simp only [Payload.wellFormed, Bool.and_eq_true, Bool.or_eq_true, beq_iff_eq, decide_eq_true_eq]
    exact ⟨few, by omega⟩
  | report =>
    dsimp only [parsePayload] at read
    split at read
    · cases read
      simp only [List.length_cons] at short
      simp only [Payload.wellFormed, decide_eq_true_eq]
      omega
    · exact nomatch read
  | _ =>
    dsimp only [parsePayload] at read
    split at read
    · cases read
      rfl
    · exact nomatch read

end

/-! ### The tests of a frame (R9) -/

theorem acceptFrame_some {bytes : List Byte} {f : RxFrame} (accepted : acceptFrame bytes = some f) :
    ∃ (b1 b3 : Byte) (body : List Byte),
      bytes = 0xD3 :: b1 :: f.payload.kind.code :: b3 :: (body ++ bytes16 (crc (b1 :: f.payload.kind.code :: b3 :: body))) ∧
        b1.extractLsb' 4 2 = 0 ∧ b1.extractLsb' 0 4 = f.sender ∧ b1.extractLsb' 6 2 = f.payload.kind.frameClass ∧
        body.length = b3.toNat ∧ b3.toNat ≤ 16 ∧ parsePayload f.payload.kind body = some f.payload := by
  unfold acceptFrame at accepted
  split at accepted
  case h_2 => exact nomatch accepted
  case h_1 b0 b1 b2 b3 rest =>
    split at accepted
    case isFalse => exact nomatch accepted
    case isTrue passes =>
      obtain ⟨rfl, clear, short, length, check⟩ := passes
      split at accepted
      case h_2 => exact nomatch accepted
      case h_1 kind known =>
        split at accepted
        case isFalse => exact nomatch accepted
        case isTrue ofClass =>
          obtain ⟨p, read, rfl⟩ := Option.map_eq_some_iff.1 accepted
          have sameKind := parsePayload_kind read
          have code := FrameKind.code_of_ofCode known
          refine ⟨b1, b3, rest.take b3.toNat, ?_, clear, rfl, sameKind ▸ ofClass, ?_, short, sameKind ▸ read⟩
          · dsimp only
            rw [sameKind, code, ← check, List.take_append_drop]
          · rw [List.length_take, length]
            omega

theorem acceptFrame_encode {b1 b3 : Byte} {body : List Byte} {p : Payload} (clear : b1.extractLsb' 4 2 = 0)
    (ofClass : b1.extractLsb' 6 2 = p.kind.frameClass) (length : body.length = b3.toNat) (short : b3.toNat ≤ 16)
    (read : parsePayload p.kind body = some p) :
    acceptFrame (0xD3 :: b1 :: p.kind.code :: b3 :: (body ++ bytes16 (crc (b1 :: p.kind.code :: b3 :: body)))) =
      some ⟨b1.extractLsb' 0 4, p⟩ := by
  have taken (tail : List Byte) : (body ++ tail).take b3.toNat = body := by rw [← length, List.take_left]
  have dropped (tail : List Byte) : (body ++ tail).drop b3.toNat = tail := by rw [← length, List.drop_left]
  rw [acceptFrame, if_pos ⟨rfl, clear, short, by simp [length, bytes16], by rw [dropped, taken]⟩, FrameKind.ofCode_code]
  dsimp only
  rw [if_pos ofClass, taken, read]
  rfl

/-- Settles O3. -/
theorem encodedFramesAreAccepted : Obligations.EncodedFramesAreAccepted := by
  intro sender p fits
  obtain ⟨clear, ofClass, from_⟩ := classByte_fields p.kind.frameClass sender
  have short := payloadBytes_length fits
  have length : (payloadBytes p).length = (BitVec.ofNat 8 (payloadBytes p).length).toNat := by
    rw [BitVec.toNat_ofNat, Nat.mod_eq_of_lt (by omega)]
  have accepted := acceptFrame_encode clear ofClass length (by omega) (parsePayload_payloadBytes fits)
  rw [from_] at accepted
  exact accepted

/-- Two entries never take 13 bytes. -/
theorem entryBytes_length (e : RawEntry) :
    (entryBytes e).length = 10 ∨ (entryBytes e).length = 4 ∨ (entryBytes e).length = 2 ∨ (entryBytes e).length = 1 := by
  cases e <;> simp [entryBytes, bytes16, bytes24]

theorem flatMap_entryBytes_length {es : List RawEntry} (few : es.length = 1 ∨ es.length = 2) :
    1 ≤ (es.flatMap entryBytes).length ∧ (es.flatMap entryBytes).length ≠ 13 := by
  match es, few with
  | [e], _ =>
    have := entryBytes_length e
    simp only [List.flatMap_cons, List.flatMap_nil, List.append_nil]
    omega
  | [e, e'], _ =>
    have := entryBytes_length e
    have := entryBytes_length e'
    simp only [List.flatMap_cons, List.flatMap_nil, List.append_nil, List.length_append]
    omega

/-- Settles O4: each test of R9 is read off the acceptor, and the bytes off the payload they were read as. -/
theorem acceptedFramesPassTheTests : Obligations.AcceptedFramesPassTheTests := by
  intro bytes f accepted
  obtain ⟨b1, b3, body, split, clear, sender, ofClass, length, short, read⟩ := acceptFrame_some accepted
  have fits := parsePayload_wellFormed read (by omega)
  refine ⟨b1, b3, body, split, clear, sender, ofClass, length, fits, ?_, parsePayload_bytes read,
    fun targets sequence entries step => ?_⟩
  · obtain ⟨from_, p⟩ := f
    dsimp only at read fits ⊢
    cases p with
    | patStep t s es =>
      obtain ⟨t1, t0, q, rest, es', rfl, entries, same⟩ := parsePayload_patStep read
      obtain ⟨few, total, -⟩ := parseEntries_some entries
      have unlike := flatMap_entryBytes_length few
      simp only [List.length_cons] at length
      show 4 ≤ b3.toNat ∧ b3.toNat ≤ 15
      omega
    | report t g q c =>
      have sent := congrArg List.length (parsePayload_bytes read nofun)
      simp only [payloadBytes, bytes16, List.length_append, List.length_cons, List.length_nil] at sent
      show 4 ≤ b3.toNat ∧ b3.toNat ≤ 16
      omega
    | _ =>
      have sent := congrArg List.length (parsePayload_bytes read nofun)
      rw [← length, sent]
      simp [payloadBytes, bytes16, bytes24, bytes32]
  · rw [step] at read
    obtain ⟨t1, t0, q, rest, es, rfl, entries', same⟩ := parsePayload_patStep read
    obtain ⟨rfl, rfl, rfl⟩ := Payload.patStep.inj same
    obtain ⟨-, -, heads, sameLength, joined, headOf⟩ := parseEntries_some entries'
    exact ⟨heads, sameLength, by rw [bytes16_join, ← joined]; rfl, headOf⟩

end Sys2Proof
end

section
/-! SUPPORT. The array's operations as they complete and as they are set aside (R108 to R114). -/

namespace Sys2Proof.Machine

section
variable {st : Store} {rest : List NvOp}

theorem Store.beginOp_program (idle : st.phase = none) (free : st.serving = none) {i : Fin 32} {p : Pattern}
    (ops : st.ops = .program i p :: rest) :
    st.beginOp =
      Store.setCell { st with phase := some .writing, opTime := 20000 + 250 * p.entries.length } i
        (some { pattern := p, version := 0, marker := false, checkGood := false, retired := false }) := by
  rw [Store.beginOp, idle, free, ops]
  rfl

theorem Store.beginOp_erase (idle : st.phase = none) (free : st.serving = none) {i : Fin 32} (ops : st.ops = .erase i :: rest) :
    st.beginOp =
      Store.setRecord { st with phase := some .writing, opTime := 45000 } i { st.record i with state := .erasing } := by
  rw [Store.beginOp, idle, free, ops]
  rfl

/-- The head of the FIFO begins at once in an idle array with a free port. -/
theorem Store.beginOp_headBegun (idle : st.phase = none) (free : st.serving = none) : st.beginOp.headBegun := by
  by_cases ops : st.ops = []
  · rw [Store.beginOp_of_noOps ops]
    exact ⟨fun _ => idle, fun i p rest head => (nomatch ops.symm.trans head), fun i rest head => (nomatch ops.symm.trans head)⟩
  · obtain ⟨op, rest, ops⟩ := List.exists_cons_of_ne_nil ops
    cases op with
    | program i p =>
      rw [Store.beginOp_program idle free ops]
      refine ⟨fun none => (nomatch ops.symm.trans none), fun j q more head => ?_, fun j more head => (nomatch ops.symm.trans head)⟩
      obtain ⟨same, -⟩ := List.cons.inj (ops.symm.trans head)
      obtain ⟨rfl, rfl⟩ := NvOp.program.inj same
      exact ⟨rfl, rfl, _, (Store.setCell_cell ..).trans (if_pos rfl), rfl, rfl⟩
    | erase i =>
      rw [Store.beginOp_erase idle free ops]
      refine ⟨fun none => (nomatch ops.symm.trans none), fun j q more head => (nomatch ops.symm.trans head), fun j more head => ?_⟩
      obtain ⟨same, -⟩ := List.cons.inj (ops.symm.trans head)
      obtain rfl := NvOp.erase.inj same
      exact ⟨rfl, rfl, congrArg SlotRecord.state ((Store.setRecord_record ..).trans (if_pos rfl))⟩

/-- A beginning operation touches its own slot alone, and an erase not even that slot's array cell. -/
theorem Store.beginOp_other {j : Fin 32} (other : ∀ op, st.ops.head? = some op → op.slot ≠ j) :
    st.beginOp.record j = st.record j ∧ st.beginOp.cell j = st.cell j := by
  rcases st.beginOp_cases with same | ⟨i, p, rest, ops, begun⟩ | ⟨i, rest, ops, begun⟩
  · rw [same]
    exact ⟨rfl, rfl⟩
  · rw [begun]
    exact Store.alters_setCell _ i _ j (Ne.symm (other (.program i p) (by rw [ops]; rfl)))
  · rw [begun]
    exact Store.alters_setRecord _ i _ j (Ne.symm (other (.erase i) (by rw [ops]; rfl)))

theorem Store.beginOp_ops : st.beginOp.ops = st.ops := by
  rcases st.beginOp_cases with same | ⟨i, p, rest, ops, begun⟩ | ⟨i, rest, ops, begun⟩
  · rw [same]
  · rw [begun]
    rfl
  · rw [begun]
    rfl

theorem Store.beginOp_counter : st.beginOp.counter = st.counter := by
  rcases st.beginOp_cases with same | ⟨i, p, rest, ops, begun⟩ | ⟨i, rest, ops, begun⟩
  · rw [same]
  · rw [begun]
    rfl
  · rw [begun]
    rfl

variable {i : Fin 32} {p : Pattern}

theorem Store.marked_alters (st : Store) (i : Fin 32) : st.alters (st.marked i) i := fun _ other =>
  ⟨(st.marked_record i _).trans (if_neg other.symm), st.marked_cell_other other.symm⟩

/-- A completed program without an older copy. -/
theorem Store.completeProgram_alone (alone : ∀ j : Fin 32, j ≠ i → (st.record j).state = .valid → (st.record j).id ≠ some p.id) :
    st.completeProgram i p = st.completed i p := by
  cases older : st.olderCopy i p.id with
  | none => rw [Store.completeProgram_eq, older]
  | some j =>
    obtain ⟨other, valid, hasId⟩ := Store.olderCopy_some older
    exact absurd hasId (alone j other valid)

theorem Store.completeProgram_replaces {j : Fin 32} (other : j ≠ i) (valid : (st.record j).state = .valid)
    (hasId : (st.record j).id = some p.id)
    (single : ∀ k : Fin 32, k ≠ i → (st.record k).state = .valid → (st.record k).id = some p.id → k = j) :
    st.completeProgram i p = { (st.completed i p).marked j with ops := (st.completed i p).ops ++ [.erase j] } := by
  cases older : st.olderCopy i p.id with
  | none => exact absurd hasId (Store.olderCopy_none older other valid)
  | some k =>
    obtain ⟨notOwn, kValid, kId⟩ := Store.olderCopy_some older
    obtain rfl := single k notOwn kValid kId
    rw [Store.completeProgram_eq, older]

/-- What every completed program leaves, with an older copy or without. -/
theorem Store.completeProgram_idle :
    (st.completeProgram i p).phase = none ∧ (st.completeProgram i p).serving = st.serving ∧
      (st.completeProgram i p).counter = some st.nextVersion := by
  rw [Store.completeProgram_eq]
  cases st.olderCopy i p.id <;> exact ⟨rfl, rfl, rfl⟩

theorem Store.completeProgram_own :
    (st.completeProgram i p).record i =
        { state := .valid, id := some p.id, version := some st.nextVersion, count := some p.entries.length } ∧
      (st.completeProgram i p).cell i =
        some { pattern := p, version := st.nextVersion, marker := true, checkGood := true, retired := false } := by
  rw [Store.completeProgram_eq]
  cases older : st.olderCopy i p.id with
  | none => exact ⟨by simp, by simp⟩
  | some j =>
    obtain ⟨other, -⟩ := Store.olderCopy_some older
    have apart := Store.marked_alters (st.completed i p) j i other.symm
    exact ⟨apart.1.trans (by simp), apart.2.trans (by simp)⟩

theorem Store.completeErase_own : (st.completeErase i).record i = SlotRecord.cleared ∧ (st.completeErase i).cell i = none :=
  ⟨(Store.setRecord_record ..).trans (if_pos rfl), (Store.setCell_cell ..).trans (if_pos rfl)⟩

/-- A SUSPENDED operation's port serves the oldest Sequencer lookup, else the oldest of the Web Map. -/
theorem Store.portGoOn_suspended (free : st.serving = none) (waiting : st.waiting = true) :
    Store.portGoOn { st with phase := some .suspended } = Store.serveNext { st with phase := some .suspended } := by
  rw [Store.portGoOn]
  dsimp only
  rw [free]
  exact if_pos waiting

theorem Store.portGoOn_still (free : st.serving = none) (still : st.waiting = false) :
    Store.portGoOn { st with phase := some .writing } = { st with phase := some .writing } := by
  rw [Store.portGoOn]
  dsimp only
  rw [free]
  exact if_neg (by rw [show Store.waiting { st with phase := some .writing, serving := none } = false from still]; nofun)

theorem Store.portGoOn_writing (free : st.serving = none) (waiting : st.waiting = true) :
    Store.portGoOn { st with phase := some .writing } = { st with phase := some .suspending } := by
  rw [Store.portGoOn]
  dsimp only
  rw [free]
  exact if_pos waiting

end

/-- Settles O46. -/
theorem nvOperationsCompleteAndStepAside : Obligations.NvOperationsCompleteAndStepAside := by
  refine fun s => ⟨fun i p rest version writing free ops apart counts => ?_, fun i rest writing free ops apart => ?_,
    fun suspending free => ⟨fun l rest waits => ?_, fun l rest none waits => ?_⟩, fun resuming free => ⟨fun seq map => ?_, fun waits => ?_⟩⟩
  · subst counts
    let u := s.store.completeProgram i p
    obtain ⟨idle, serving, counter⟩ := Store.completeProgram_idle (st := s.store) (i := i) (p := p)
    obtain ⟨record, cell⟩ := Store.completeProgram_own (st := s.store) (i := i) (p := p)
    have taken : exec .nvProgramComplete s = .next { s with store := u.beginOp } := by
      show execNvProgramComplete s = _
      rw [execNvProgramComplete, writing, ops]
    have restOps := Store.completed_ops ops
    have heads (x : NvOp) (head : u.ops.head? = some x) : x.slot ≠ i := by
      have mem : x ∈ u.ops := List.mem_of_mem_head? head
      by_cases alone : ∀ j : Fin 32, j ≠ i → (s.store.record j).state = .valid → (s.store.record j).id ≠ some p.id
      · rw [show u = _ from Store.completeProgram_alone alone, restOps] at mem
        exact apart x mem
      · cases older : s.store.olderCopy i p.id with
        | none => exact absurd (fun j other valid => Store.olderCopy_none older other valid) alone
        | some j =>
          rw [show u = _ from Store.completeProgram_eq .., older] at mem
          dsimp only at mem
          rw [restOps] at mem
          rcases List.mem_append.1 mem with old | new
          · exact apart x old
          · rw [List.mem_singleton.1 new]
            exact (Store.olderCopy_some older).1
    obtain ⟨sameRecord, sameCell⟩ := Store.beginOp_other (st := u) heads
    refine ⟨_, taken, Store.beginOp_counter.trans counter, Store.beginOp_headBegun idle (serving.trans free), sameCell.trans cell,
      sameRecord.trans record, fun alone => ?_, fun j other valid hasId single distinct => ?_, rfl⟩
    · have whole : u = s.store.completed i p := Store.completeProgram_alone alone
      dsimp only
      rw [whole]
      refine ⟨Store.beginOp_ops.trans restOps, fun j other notHead => ?_⟩
      obtain ⟨sameRecord, sameCell⟩ := Store.beginOp_other (st := s.store.completed i p) (j := j) (by rwa [restOps])
      obtain ⟨oldRecord, oldCell⟩ := s.store.completed_alters i p j other
      exact ⟨sameRecord.trans oldRecord, sameCell.trans oldCell⟩
    · have whole : u = { (s.store.completed i p).marked j with ops := rest ++ [.erase j] } := by
        rw [← restOps]
        exact Store.completeProgram_replaces other valid hasId single
      have markedAt : u.record j = { s.store.record j with state := .retired } ∧
          u.cell j = (s.store.cell j).map fun r => { r with retired := true } := by
        obtain ⟨oldRecord, oldCell⟩ := s.store.completed_alters i p j other
        rw [← oldRecord, ← oldCell, whole]
        exact ⟨(Store.setRecord_record ..).trans (if_pos rfl), (Store.setCell_cell ..).trans (if_pos rfl)⟩
      have atOther (k : Fin 32) (notOwn : k ≠ i) (notOld : k ≠ j) :
          u.record k = s.store.record k ∧ u.cell k = s.store.cell k := by
        obtain ⟨oldRecord, oldCell⟩ := s.store.completed_alters i p k notOwn
        obtain ⟨newRecord, newCell⟩ := Store.marked_alters (s.store.completed i p) j k notOld
        rw [whole]
        exact ⟨newRecord.trans oldRecord, newCell.trans oldCell⟩
      have uOps : u.ops = rest ++ [.erase j] := by rw [whole]
      dsimp only
      refine ⟨Store.beginOp_ops.trans uOps, ?_⟩
      cases rest with
      | nil =>
        have begun := Store.beginOp_erase (st := u) idle (serving.trans free) uOps
        rw [begun, if_pos rfl]
        refine ⟨congrArg SlotRecord.state ((Store.setRecord_record ..).trans (if_pos rfl)), markedAt.2, fun k notOwn notOld _ => ?_⟩
        obtain ⟨oldRecord, oldCell⟩ := atOther k notOwn notOld
        exact ⟨((Store.setRecord_record ..).trans (if_neg (Ne.symm notOld))).trans oldRecord, oldCell⟩
      | cons op more =>
        have head : u.ops.head? = some op := by rw [uOps]; rfl
        have elsewhere (k : Fin 32) (notHead : op.slot ≠ k) :=
          Store.beginOp_other (st := u) (j := k) fun x isHead => Option.some.inj (head.symm.trans isHead) ▸ notHead
        obtain ⟨sameRecord, sameCell⟩ := elsewhere j (distinct op (List.mem_cons_self ..))
        rw [if_neg (List.cons_ne_nil _ _), sameRecord, sameCell, markedAt.1, markedAt.2]
        refine ⟨rfl, rfl, fun k notOwn notOld notHead => ?_⟩
        obtain ⟨keptRecord, keptCell⟩ := elsewhere k (notHead op rfl)
        obtain ⟨oldRecord, oldCell⟩ := atOther k notOwn notOld
        exact ⟨keptRecord.trans oldRecord, keptCell.trans oldCell⟩
  · let u := s.store.completeErase i
    have taken : exec .nvEraseComplete s = .next { s with store := u.beginOp } := by
      show execNvEraseComplete s = _
      rw [execNvEraseComplete, writing, ops]
    have uOps : u.ops = rest := by
      show s.store.ops.tail = rest
      rw [ops]
      rfl
    obtain ⟨record, cell⟩ := Store.completeErase_own (st := s.store) (i := i)
    obtain ⟨sameRecord, sameCell⟩ := Store.beginOp_other (st := u) (j := i)
      fun op head => apart op (by rw [uOps] at head; exact List.mem_of_mem_head? head)
    refine ⟨_, taken, Store.beginOp_ops.trans uOps, Store.beginOp_headBegun rfl free, sameCell.trans cell, sameRecord.trans record,
      fun j other notHead => ?_, rfl⟩
    obtain ⟨keptRecord, keptCell⟩ := Store.beginOp_other (st := u) (j := j) (by rwa [uOps])
    obtain ⟨oldRecord, oldCell⟩ := s.store.completeErase_alters i j other
    exact ⟨keptRecord.trans oldRecord, keptCell.trans oldCell⟩
  · let service : Service := { lookup := l, found := s.store.lookup l.id, time := serviceTime l (s.store.lookup l.id) }
    refine ⟨_, service, congrArg Host.Outcome.next (if_pos suspending), rfl, rfl, ?_⟩
    rw [Store.portGoOn_suspended free (by simp [Store.waiting, waits]), Store.serveNext]
    dsimp only
    rw [waits]
    rfl
  · let service : Service := { lookup := l, found := s.store.lookup l.id, time := serviceTime l (s.store.lookup l.id) }
    refine ⟨_, service, congrArg Host.Outcome.next (if_pos suspending), rfl, rfl, ?_⟩
    rw [Store.portGoOn_suspended free (by simp [Store.waiting, waits]), Store.serveNext]
    dsimp only
    rw [none, waits]
    rfl
  · refine congrArg Host.Outcome.next ((if_pos resuming).trans (congrArg (fun u => { s with store := u }) ?_))
    exact Store.portGoOn_still free (by rw [Store.waiting, seq, map]; rfl)
  · refine congrArg Host.Outcome.next ((if_pos resuming).trans (congrArg (fun u => { s with store := u }) ?_))
    exact Store.portGoOn_writing free (by simpa [Store.waiting] using waits)

end Sys2Proof.Machine
end

section
/-! SUPPORT. The exits: the features that wait there, and how they are taken (R77 to R82). -/

namespace Sys2Proof.Machine

/-! ### Lists with one feature that is asked for -/

theorem eraseP_append_of_skipped {α : Type} {p : α → Bool} {before : List α} (skipped : ∀ x ∈ before, p x = false) {a : α}
    (taken : p a = true) (after : List α) : (before ++ a :: after).eraseP p = before ++ after := by
  rw [List.eraseP_append_right _ (fun x mem => by rw [skipped x mem]; nofun), List.eraseP_cons_of_pos taken]

theorem any_eq_false_of {α : Type} {p : α → Bool} {l : List α} (none : ∀ x ∈ l, p x = false) : l.any p = false :=
  List.any_eq_false.2 fun x mem => by rw [none x mem]; nofun

/-! ### A latched event keeps the places and marks of the list -/

/-- The place and the marks of a feature. -/
def Feature.marks (f : Feature) : Pos × Bool × Bool := (f.entry, f.reached, f.overdue)

theorem State.listIs_iff {t : State} {fs : List Feature} : t.listIs fs ↔ t.map.features.map Feature.marks = fs.map Feature.marks :=
  Iff.rfl

theorem State.heldAbort_listIs (s : State) : s.heldAbort.listIs s.map.features := by
  by_cases playing : s.seq.state = .leadIn ∨ s.seq.state = .folding
  · rw [State.heldAbort_halted playing]
    cases current : s.seq.current with
    | none => simp only [State.abandonPanel, current, State.listIs]
    | some d => exact (s.abandonPanel_givesUpPanel d .halted current).2.1
  · rw [State.heldAbort_idle playing]

theorem State.haltLine_listIs (s : State) (origin : Byte) : (s.haltLine origin).listIs s.map.features := by
  by_cases moves : s.line.state = .run ∨ s.line.state = .stopping ∨ s.line.state = .standby
  · rw [State.haltLine_moves moves]
    have kept : (s.halted origin).map = s.map := by rw [State.halted_frame]
    split
    · rw [State.listIs, kept]
    · have abort := (s.halted origin).heldAbort_listIs
      rwa [kept] at abort
  · rw [State.haltLine_rests (by cases state : s.line.state <;> simp_all)]

theorem State.latch_listIs (s : State) (e : Event) : (s.latch e).listIs s.map.features := by
  by_cases halt : e.isHalt = true
  · have same : (s.latch e).map = ((s.flag e).haltLine s.ownIndex).map := by simp [State.latch_halt halt]
    rw [State.listIs, same]
    exact (s.flag e).haltLine_listIs s.ownIndex
  · rw [State.latch_report (by simpa using halt)]
    exact rfl

/-- Whether a feature waits at the exit is read off its marks. -/
theorem no_held_of_marks {fs gs : List Feature} (same : fs.map Feature.marks = gs.map Feature.marks)
    (none : ∀ g ∈ gs, g.isHeld = false) : ∀ f ∈ fs, f.isHeld = false := by
  intro f mem
  obtain ⟨g, inGs, marks⟩ := List.mem_map.1 (same ▸ List.mem_map_of_mem mem)
  obtain ⟨-, reached, late⟩ : g.entry = f.entry ∧ g.reached = f.reached ∧ g.overdue = f.overdue := by
    simpa [Feature.marks] using marks
  have held := none g inGs
  rwa [Feature.isHeld, reached, late] at held

/-! ### The exits that can be taken (R77, R79) -/

section
variable {s : State} {before after : List Feature} {f : Feature}

theorem State.takeHeld_none (none : ∀ g ∈ s.map.features, g.isHeld = false) (n : Nat) : State.takeHeld n s = s := by
  cases n with
  | zero => rfl
  | succ n =>
    have absent : s.map.features.find? Feature.isHeld = Option.none :=
      List.find?_eq_none.2 fun g mem => by rw [none g mem]; nofun
    rw [State.takeHeld, absent]

theorem State.takeExits_none (none : ∀ g ∈ s.map.features, g.isHeld = false) : s.takeExits = s := State.takeHeld_none none _

/-- A held feature with a pending field keeps every exit behind it. -/
theorem State.takeExits_waits (features : s.map.features = before ++ f :: after) (skipped : ∀ g ∈ before, g.isHeld = false)
    (held : f.isHeld = true) (pending : f.hasPending = true) : s.takeExits = s := by
  have found : s.map.features.find? Feature.isHeld = some f := by rw [features]; exact find?_append_of_skipped skipped held after
  unfold State.takeExits
  cases s.map.features.length with
  | zero => rfl
  | succ n =>
    rw [State.takeHeld, found]
    exact if_pos pending

theorem State.takeHeld_succ (features : s.map.features = before ++ f :: after) (skipped : ∀ g ∈ before, g.isHeld = false)
    (held : f.isHeld = true) (filled : f.hasPending = false) (n : Nat) : State.takeHeld (n + 1) s = State.takeHeld n (s.exitHeld f) := by
  have found : s.map.features.find? Feature.isHeld = some f := by rw [features]; exact find?_append_of_skipped skipped held after
  rw [State.takeHeld, found]
  exact if_neg (by rw [filled]; nofun)

theorem State.takeExits_eq (features : s.map.features = before ++ f :: after) (skipped : ∀ g ∈ before, g.isHeld = false)
    (held : f.isHeld = true) (filled : f.hasPending = false) :
    s.takeExits = State.takeHeld (before.length + after.length) (s.exitHeld f) := by
  have length : s.map.features.length = before.length + after.length + 1 := by
    rw [features, List.length_append, List.length_cons, Nat.add_assoc]
  rw [State.takeExits, length, State.takeHeld_succ features skipped held filled]

theorem State.exitHeld_last (features : s.map.features = before ++ f :: after) (skipped : ∀ g ∈ before, g.isHeld = false)
    (held : f.isHeld = true) (last : s.isLast = true) :
    s.exitHeld f = { s with map := { features := before ++ after, gateOpen := s.gateAfter s.map.gateOpen f } } := by
  rw [State.exitHeld, if_pos last, features, eraseP_append_of_skipped skipped held]

theorem State.exitHeld_sent (features : s.map.features = before ++ f :: after) (skipped : ∀ g ∈ before, g.isHeld = false)
    (held : f.isHeld = true) (notLast : s.isLast = false) (none : s.anyOverdue = false) (room : s.handoffRoom = true) :
    s.exitHeld f = State.pushHandoff { s with map := { s.map with features := before ++ after } } (s.handoffOf f) := by
  rw [State.exitHeld, if_neg (by rw [notLast]; nofun), if_neg (by rw [none, room]; nofun), features,
    eraseP_append_of_skipped skipped held]

/-- The state with the held feature OVERDUE. -/
def State.backedUp (s : State) (before after : List Feature) (f : Feature) : State :=
  { s with map := { s.map with features := before ++ { f with overdue := true } :: after } }

theorem State.exitHeld_overdue (features : s.map.features = before ++ f :: after) (skipped : ∀ g ∈ before, g.isHeld = false)
    (held : f.isHeld = true) (notLast : s.isLast = false) (blocked : s.anyOverdue = true ∨ s.handoffRoom = false) :
    s.exitHeld f = (s.backedUp before after f).latch .handoffBacklog := by
  have blocks : (s.anyOverdue || !s.handoffRoom) = true := by
    rcases blocked with late | full
    · rw [late]
      rfl
    · rw [full]
      exact Bool.or_true _
  rw [State.exitHeld, if_neg (by rw [notLast]; nofun), if_pos blocks, features, modifyFirst_append skipped held]
  rfl

/-- The only held feature, its fields filled, takes its exit. -/
theorem State.takeExits_one (features : s.map.features = before ++ f :: after) (skipped : ∀ g ∈ before, g.isHeld = false)
    (held : f.isHeld = true) (filled : f.hasPending = false) (behind : ∀ g ∈ after, g.isHeld = false) : s.takeExits = s.exitHeld f := by
  rw [State.takeExits_eq features skipped held filled]
  refine State.takeHeld_none ?_ _
  have without : ∀ g ∈ before ++ after, g.isHeld = false := fun g mem => (List.mem_append.1 mem).elim (skipped g) (behind g)
  cases last : s.isLast with
  | true => rw [State.exitHeld_last features skipped held last]; exact without
  | false =>
    by_cases blocked : s.anyOverdue = true ∨ s.handoffRoom = false
    · rw [State.exitHeld_overdue features skipped held last blocked]
      refine no_held_of_marks (State.latch_listIs _ .handoffBacklog) fun g mem => ?_
      rcases List.mem_append.1 mem with inBefore | rest
      · exact skipped g inBefore
      · rcases List.mem_cons.1 rest with rfl | inAfter
        · exact Bool.and_false _
        · exact behind g inAfter
    · rw [State.exitHeld_sent features skipped held last (by simpa using fun late => blocked (.inl late))
        (by simpa using fun full => blocked (.inr full))]
      exact without

end

/-! ### A feature reaches the exit (R77, R79) -/

section
variable {s : State} {before after : List Feature} {f : Feature}

/-- The state with the feature marked as having reached the exit. -/
def State.arrived (s : State) (before after : List Feature) (f : Feature) : State :=
  { s with map := { s.map with features := before ++ { f with reached := true } :: after } }

theorem State.exitDue_of (fresh : f.reached = false) :
    s.exitDue f = decide ((s.cfg.lSpan : Int) ≤ travel s.tracker.position f.entry) := by
  rw [State.exitDue, fresh]
  rfl

theorem State.exitDue_reached (reached : f.reached = true) : s.exitDue f = false := by
  rw [State.exitDue, reached]
  rfl

theorem exec_featureAtExit (features : s.map.features = before ++ f :: after) (earlier : ∀ g ∈ before, g.reached = true)
    (fresh : f.reached = false) (due : (s.cfg.lSpan : Int) ≤ travel s.tracker.position f.entry) :
    exec .featureAtExit s = .next ((s.arrived before after f).featureExit f) := by
  have skipped : ∀ g ∈ before, s.exitDue g = false := fun g mem => State.exitDue_reached (earlier g mem)
  have isDue : s.exitDue f = true := by rw [State.exitDue_of fresh]; exact decide_eq_true due
  have found : s.map.features.find? s.exitDue = some f := by rw [features]; exact find?_append_of_skipped skipped isDue after
  show execFeatureAtExit s = _
  rw [execFeatureAtExit, found]
  dsimp only
  rw [State.markReached, features, modifyFirst_append skipped isDue]
  rfl

theorem exec_featureAtExit_none (none : ∀ g ∈ s.map.features, s.exitDue g = false) : exec .featureAtExit s = .next s := by
  have absent : s.map.features.find? s.exitDue = Option.none := List.find?_eq_none.2 fun g mem => by rw [none g mem]; nofun
  show execFeatureAtExit s = _
  rw [execFeatureAtExit, absent]

theorem State.atBlade_away (away : s.cfg.blade = false) : s.atBlade f = s := if_neg (by rw [away]; nofun)

theorem State.featureExit_away (away : s.cfg.blade = false) : s.featureExit f = s.takeExits := by
  have kept : s.takeExits.atBlade f = s.takeExits := State.atBlade_away (by simpa using away)
  unfold State.featureExit
  split
  · exact kept
  · have still : s.endsPlay = false := by rw [State.endsPlay, away]; rfl
    rw [if_neg (by rw [still]; nofun), kept]

theorem Feature.isHeld_late (late : f.overdue = true) : f.isHeld = false := by rw [Feature.isHeld, late]; exact Bool.and_false _

theorem Feature.isHeld_fresh (fresh : f.reached = false) : f.isHeld = false := by rw [Feature.isHeld, fresh]; rfl

theorem Feature.isHeld_arrived (notLate : f.overdue = false) : Feature.isHeld { f with reached := true } = true := by
  rw [Feature.isHeld, notLate]
  rfl

/-- A feature that has reached the exit is the one that takes it, when none waits before it and nothing is OVERDUE in its way. -/
theorem State.arrived_anyOverdue (notLate : f.overdue = false) (behind : ∀ g ∈ after, g.overdue = false) :
    (s.arrived [] after f).anyOverdue = false :=
  any_eq_false_of fun g mem => (List.mem_cons.1 mem).elim (fun same => same ▸ notLate) (behind g)

theorem State.arrived_blocked (blocked : before ≠ [] ∨ 8 ≤ s.link.handoffFifo.length ∨ s.events.has .duplicateIndex = true)
    (earlier : ∀ g ∈ before, g.overdue = true) :
    (s.arrived before after f).anyOverdue = true ∨ (s.arrived before after f).handoffRoom = false := by
  rcases blocked with some_ | full
  · obtain ⟨g, rest, rfl⟩ := List.exists_cons_of_ne_nil some_
    exact .inl (List.any_eq_true.2 ⟨g, by simp [State.arrived], earlier g (List.mem_cons_self ..)⟩)
  · refine .inr (Bool.eq_false_iff.2 fun room => ?_)
    obtain ⟨few, single⟩ := State.handoffRoom_iff.1 room
    rcases full with full | duplicate
    · exact absurd (show s.link.handoffFifo.length < 8 from few) (Nat.not_lt.2 full)
    · exact nomatch duplicate.symm.trans single

theorem State.gateAfter_unfitted {gate : Bool} (unfitted : s.cfg.rejectGate = false) : s.gateAfter gate f = gate :=
  if_neg (by rw [unfitted]; nofun)

theorem State.gateAfter_panel {gate : Bool} {p : Panel} (fitted : s.cfg.rejectGate = true) (body : f.body = .panel p) :
    s.gateAfter gate f = p.cause.isSome := by
  rw [State.gateAfter, if_pos fitted, body]

theorem State.gateAfter_splice {gate : Bool} {n : Nat} {a : Bool} (body : f.body = .splice n a) : s.gateAfter gate f = gate := by
  rw [State.gateAfter, body]
  exact ite_self gate

end

/-- Settles O39. -/
theorem exitsHandOnOrMoveTheGate : Obligations.ExitsHandOnOrMoveTheGate := by
  intro s before after f away features earlier behind fresh notLate
  refine ⟨fun short shortBehind => exec_featureAtExit_none fun g mem => ?_, fun due => ?_⟩
  · rw [features] at mem
    rcases List.mem_append.1 mem with inBefore | rest
    · exact State.exitDue_reached (earlier g inBefore).1
    · rcases List.mem_cons.1 rest with rfl | inAfter
      · rw [State.exitDue_of fresh]
        exact decide_eq_false (by omega)
      · rw [State.exitDue_of (behind g inAfter).1]
        exact decide_eq_false (by have := shortBehind g inAfter; omega)
  · let g : Feature := { f with reached := true }
    have taken : exec .featureAtExit s = .next (s.arrived before after f).takeExits :=
      (exec_featureAtExit features (fun g mem => (earlier g mem).1) fresh due).trans
        (congrArg _ (State.featureExit_away (s := s.arrived before after f) away))
    have skipped : ∀ g ∈ before, g.isHeld = false := fun g mem => Feature.isHeld_late (earlier g mem).2
    have heldG : g.isHeld = true := Feature.isHeld_arrived notLate
    have noneBehind : ∀ g ∈ after, g.isHeld = false := fun g mem => Feature.isHeld_fresh (behind g mem).1
    refine ⟨fun pending => ?_, fun filled notLast => ⟨fun first few single => ?_, fun blocked => ?_⟩, fun filled last first => ?_⟩
    · rw [taken, State.takeExits_waits (s := s.arrived before after f) rfl skipped heldG pending]
      rfl
    · subst first
      have one := State.takeExits_one (s := s.arrived [] after f) rfl skipped heldG filled noneBehind
      have sent := State.exitHeld_sent (s := s.arrived [] after f) rfl skipped heldG notLast
        (State.arrived_anyOverdue notLate fun g mem => (behind g mem).2) (State.handoffRoom_iff.2 ⟨few, single⟩)
      refine ⟨_, s.handoffOf f, taken, fun p body => ?_, fun n a body => ?_, (one.trans sent).trans rfl⟩
      · rw [State.handoffOf, body]
        dsimp only
        rw [if_neg (by rw [away]; nofun)]
      · rw [State.handoffOf, body]
    · have one := State.takeExits_one (s := s.arrived before after f) rfl skipped heldG filled noneBehind
      let u : State := (s.arrived before after f).backedUp before after g
      have late : (s.arrived before after f).exitHeld g = u.latch .handoffBacklog :=
        State.exitHeld_overdue (s := s.arrived before after f) rfl skipped heldG notLast
          (State.arrived_blocked blocked fun g mem => (earlier g mem).2)
      refine ⟨u.latch .handoffBacklog, taken.trans (congrArg _ (one.trans late)), State.latch_has, ?_,
        fun running => ((latch_haltsTheLine u rfl).1 running).1, by simp [u, State.backedUp, State.arrived],
        by simp [u, State.backedUp, State.arrived], by simp [u, State.backedUp, State.arrived], u.latch_planKept .handoffBacklog,
        by simp [u, State.backedUp, State.arrived]⟩
      have marks := congrArg (List.map fun m : Pos × Bool × Bool => (m.1, m.2.2)) (State.latch_listIs u .handoffBacklog)
      rw [List.map_map, List.map_map] at marks
      refine marks.trans ?_
      simp [u, State.backedUp, g, Function.comp_def]
    · subst first
      have one := State.takeExits_one (s := s.arrived [] after f) rfl skipped heldG filled noneBehind
      have gone := State.exitHeld_last (s := s.arrived [] after f) rfl skipped heldG last
      refine ⟨_, taken.trans (congrArg _ (one.trans gone)), rfl, rfl, fun unfitted => State.gateAfter_unfitted (s := s) unfitted,
        fun fitted p body => State.gateAfter_panel (s := s) fitted body, fun n a body => State.gateAfter_splice (s := s) body⟩

end Sys2Proof.Machine
end

section
/-! SUPPORT. The tests of the configuration block (R23 to R25). -/

namespace Sys2Proof.Machine

section
variable {words : List Word16}

theorem within_iff {a b v : Nat} : within a b v = true ↔ a ≤ v ∧ v ≤ b := by
  rw [within, Bool.and_eq_true, decide_eq_true_eq, decide_eq_true_eq]

theorem headGood_iff : headGood words = true ↔ blockWord words 0 = 0x41B6 ∧ blockWord words 1 = 69 := by
  rw [headGood, Bool.and_eq_true, decide_eq_true_eq, decide_eq_true_eq]

theorem sumGood_iff : sumGood words = true ↔ ((List.range 69).map (blockWord words)).sum % 65536 = 0 := decide_eq_true_iff

/-- The range test of a fitted zone record, written out. -/
theorem zoneRangeGood_iff {lSpan z : Nat} :
    zoneRangeGood lSpan words z = true ↔
      (zoneRecord words z).start < (zoneRecord words z).stop ∧ (zoneRecord words z).stop ≤ lSpan ∧
        (zoneRecord words z).setpoint ≤ 2500 ∧ (zoneRecord words z).setback ≤ (zoneRecord words z).setpoint ∧
        (zoneRecord words z).band ≤ 200 ∧ 100 ≤ (zoneRecord words z).period ∧ (zoneRecord words z).period ≤ 5000 ∧
        blockWord words (37 + 10 * z) ≤ 1 := by
  simp only [zoneRangeGood, within_iff, Bool.and_eq_true, decide_eq_true_eq]
  omega

/-- The range tests, written out, field by field. -/
structure InRanges (words : List Word16) (c : StationConfig) : Prop where
  roster : blockWord words 2 % 2 = 0
  kindBits : blockWord words 3 / 64 % 4 = 0
  highBits : blockWord words 3 / 2048 = 0
  zoneCount : zoneCount words ≤ 4
  encTicks : 1 ≤ c.encTicks ∧ c.encTicks ≤ 16
  feedTicksPerStep : 1 ≤ c.feedTicksPerStep ∧ c.feedTicksPerStep ≤ 64
  newRollTicksPerStep : 1 ≤ c.newRollTicksPerStep ∧ c.newRollTicksPerStep ≤ 64
  maxSpeed : 1000 ≤ c.maxSpeed ∧ c.maxSpeed ≤ 200000
  acc : 1 ≤ c.acc ∧ c.acc ≤ 10000
  dec : 1 ≤ c.dec ∧ c.dec ≤ 10000
  decFast : 1 ≤ c.decFast ∧ c.decFast ≤ 10000
  lSpan : 1000 ≤ c.lSpan ∧ c.lSpan ≤ 2000000
  bDist : c.bDist ≤ c.lSpan
  claimWindow : 100 ≤ c.claimWindow ∧ c.claimWindow ≤ 5000
  tStroke : 4 ≤ c.tStroke ∧ c.tStroke ≤ 50
  spliceClear : c.spliceClear ≤ 60000
  segLen : 500 ≤ c.segLen ∧ c.segLen ≤ 10000
  doseDefault : c.doseDefault ≤ 60000
  spliceAt : 1000 ≤ c.spliceAt ∧ c.spliceAt ≤ 100000000
  spliceSpeed : 1000 ≤ c.spliceSpeed ∧ c.spliceSpeed ≤ c.maxSpeed
  pDist : c.pDist ≤ 2000000
  protectBoundary : c.protectBoundary ≤ 4095
  zones : ∀ z < Machine.zoneCount words, zoneRangeGood c.lSpan words z = true

theorem rangesGood_iff : rangesGood words = true ↔ InRanges words (blockFields words) := by
  simp only [rangesGood, within_iff, Bool.and_eq_true, decide_eq_true_eq, List.all_eq_true, List.mem_range, Nat.zero_le, true_and]
  constructor
  · rintro ⟨⟨⟨⟨⟨⟨⟨⟨⟨⟨⟨⟨⟨⟨⟨⟨⟨⟨⟨⟨⟨⟨h1, h2⟩, h3⟩, h4⟩, h5⟩, h6⟩, h7⟩, h8⟩, h9⟩, h10⟩, h11⟩, h12⟩, h13⟩, h14⟩, h15⟩, h16⟩, h17⟩, h18⟩, h19⟩, h20⟩, h21⟩,
      h22⟩, h23⟩
    exact ⟨h1, h2, h3, h4, h5, h6, h7, h8, h9, h10, h11, h12, h13, h14, h15, h16, h17, h18, h19, h20, h21, h22, h23⟩
  · rintro ⟨h1, h2, h3, h4, h5, h6, h7, h8, h9, h10, h11, h12, h13, h14, h15, h16, h17, h18, h19, h20, h21, h22, h23⟩
    exact ⟨⟨⟨⟨⟨⟨⟨⟨⟨⟨⟨⟨⟨⟨⟨⟨⟨⟨⟨⟨⟨⟨h1, h2⟩, h3⟩, h4⟩, h5⟩, h6⟩, h7⟩, h8⟩, h9⟩, h10⟩, h11⟩, h12⟩, h13⟩, h14⟩, h15⟩, h16⟩, h17⟩, h18⟩, h19⟩, h20⟩, h21⟩,
      h22⟩, h23⟩

/-- The consistency rules, written out. -/
theorem consistent_iff {index : BitVec 4} {c : StationConfig} :
    consistent index c = true ↔
      inSet c.roster index = true ∧ (c.blade = true → c.zones = []) ∧ (c.unwind = true → c.origin = true) ∧
        (c.origin = true → c.markSensor = true) ∧ (c.zones ≠ [] → c.lSpan ≤ 64 * c.segLen) ∧ c.bDist ≤ c.lSpan ∧
        (c.blade = true → c.bDist = c.lSpan) ∧ zonesInOrder c.zones = true := by
  have imp (a : Bool) (p : Prop) : a = false ∨ p ↔ (a = true → p) := by cases a <;> simp
  simp only [consistent, Bool.and_eq_true, Bool.or_eq_true, Bool.not_eq_true', List.isEmpty_iff, decide_eq_true_eq, and_assoc, imp,
    or_iff_not_imp_left, ne_eq]

theorem readBlock_iff {index : BitVec 4} {c : StationConfig} :
    readBlock index words = some c ↔
      c = blockFields words ∧ headGood words = true ∧ sumGood words = true ∧ InRanges words (blockFields words) ∧
        consistent index (blockFields words) = true := by
  rw [readBlock]
  split
  · next good =>
    simp only [Bool.and_eq_true, rangesGood_iff, and_assoc] at good
    exact ⟨fun same => ⟨(Option.some.inj same).symm, good⟩, fun ⟨same, _⟩ => congrArg some same.symm⟩
  · next bad =>
    simp only [Bool.and_eq_true, rangesGood_iff, and_assoc] at bad
    exact ⟨nofun, fun ⟨_, good⟩ => absurd good bad⟩

theorem zonesInOrder_pairwise {zones : List ZoneConfig} (widths : ∀ r ∈ zones, r.start < r.stop) (inOrder : zonesInOrder zones = true) :
    zones.Pairwise fun a b => a.stop ≤ b.start := by
  induction zones with
  | nil => exact .nil
  | cons a rest ih =>
    have tails : ∀ r ∈ rest, r.start < r.stop := fun r mem => widths r (List.mem_cons_of_mem _ mem)
    cases rest with
    | nil => exact List.pairwise_singleton _ _
    | cons b rest =>
      obtain ⟨next, chain⟩ : a.stop ≤ b.start ∧ zonesInOrder (b :: rest) = true := by simpa [zonesInOrder] using inOrder
      have later := ih tails chain
      refine .cons (fun r mem => ?_) later
      rcases List.mem_cons.1 mem with rfl | further
      · exact next
      · have := List.rel_of_pairwise_cons later further
        have := tails b (List.mem_cons_self ..)
        omega

theorem zonesInOrder_of_chain {zones : List ZoneConfig}
    (chain : ∀ (z : Nat) (a b : ZoneConfig), zones[z]? = some a → zones[z + 1]? = some b → a.stop ≤ b.start) : zonesInOrder zones = true := by
  induction zones with
  | nil => rfl
  | cons a rest ih =>
    cases rest with
    | nil => rfl
    | cons b rest =>
      rw [zonesInOrder, Bool.and_eq_true, decide_eq_true_eq]
      exact ⟨chain 0 a b rfl rfl, ih fun z x y atZ atNext => chain (z + 1) x y atZ atNext⟩

theorem blockFields_zone {z : Nat} :
    (blockFields words).zones[z]? = if z < zoneCount words then some (zoneRecord words z) else none := by
  have zones : (blockFields words).zones = (List.range (zoneCount words)).map (zoneRecord words) := rfl
  rw [zones, List.getElem?_map]
  split
  · next fitted => rw [List.getElem?_range fitted, Option.map_some]
  · next beyond => rw [List.getElem?_eq_none (by simpa using beyond), Option.map_none]

theorem blockFields_zones_nil : (blockFields words).zones = [] ↔ zoneCount words = 0 := by
  rw [← List.length_eq_zero_iff]
  simp [blockFields]

theorem blockWord_lt (i : Nat) : blockWord words i < 65536 := BitVec.isLt _

theorem blockFields_roster : (blockFields words).roster.toNat = blockWord words 2 := rfl

end

/-- The words and pairs of the statement are the block's. -/
theorem words_eq {words : List Word16} {word pair : Nat → Nat} (isWord : ∀ i, word i = (words.getD i 0xFFFF).toNat)
    (isPair : ∀ i, pair i = 65536 * word i + word (i + 1)) : word = blockWord words ∧ pair = blockPair words := by
  have same : word = blockWord words := funext isWord
  refine ⟨same, funext fun i => ?_⟩
  rw [isPair, same, blockPair, Nat.mul_comm]

/-- Settles O16: both directions are the tests written out. -/
theorem goodBlocksPassTheTests : Obligations.GoodBlocksPassTheTests := by
  refine ⟨fun index words c good word pair isWord isPair => ?_,
    fun index words word pair zones isWord isPair count signature length sum heads ranges zoneRanges inOrder blade unwind origin segs => ?_⟩
  · obtain ⟨rfl, rfl⟩ := words_eq isWord isPair
    obtain ⟨rfl, head, sum, r, rules⟩ := readBlock_iff.1 good
    obtain ⟨signature, length⟩ := headGood_iff.1 head
    obtain ⟨member, bladeZones, unwind, origin, segs, -, bladeSpan, inOrder⟩ := consistent_iff.1 rules
    have zones : (blockFields words).zones.length = zoneCount words := by simp [blockFields]
    have fitted (z : Nat) (x : ZoneConfig) (at_ : (blockFields words).zones[z]? = some x) :
        x = zoneRecord words z ∧ zoneRangeGood (blockFields words).lSpan words z = true := by
      rw [blockFields_zone] at at_
      split at at_
      · next isFitted => exact ⟨(Option.some.inj at_).symm, r.zones z isFitted⟩
      · exact nomatch at_
    have even : (blockFields words).roster.getLsbD 0 = false := by
      have zero := r.roster
      rw [← blockFields_roster] at zero
      simp [BitVec.getLsbD, Nat.testBit_zero, zero]
    refine ⟨signature, length, sumGood_iff.1 sum, rfl, even, member, rfl, rfl, rfl, rfl, rfl, rfl, r.kindBits, zones, r.highBits,
      zones.trans_le r.zoneCount, rfl, r.encTicks.1, r.encTicks.2, rfl, r.feedTicksPerStep.1, r.feedTicksPerStep.2, rfl,
      r.newRollTicksPerStep.1, r.newRollTicksPerStep.2, rfl, r.maxSpeed.1, r.maxSpeed.2, rfl, r.acc.1, r.acc.2, rfl, r.dec.1, r.dec.2, rfl,
      r.decFast.1, r.decFast.2, rfl, r.lSpan.1, r.lSpan.2, rfl, r.bDist, rfl, r.claimWindow.1, r.claimWindow.2, rfl, r.tStroke.1,
      r.tStroke.2, rfl, r.spliceClear, rfl, r.segLen.1, r.segLen.2, rfl, r.doseDefault, rfl, r.spliceAt.1, r.spliceAt.2, rfl,
      r.spliceSpeed.1, r.spliceSpeed.2, rfl, r.pDist, rfl, r.protectBoundary, fun isBlade => ⟨bladeZones isBlade, bladeSpan isBlade⟩,
      unwind, origin, segs, fun z x at_ => ?_, zonesInOrder_pairwise (fun x mem => ?_) inOrder⟩
    · obtain ⟨rfl, range⟩ := fitted z x at_
      obtain ⟨width, stop, setpoint, setback, band, low, high, polarity⟩ := zoneRangeGood_iff.1 range
      have gains := blockWord_lt (words := words) (35 + 10 * z)
      have kp : (zoneRecord words z).kp = blockWord words (35 + 10 * z) / 256 := rfl
      have ki : (zoneRecord words z).ki = blockWord words (35 + 10 * z) % 256 := rfl
      exact ⟨rfl, polarity, width, stop, setpoint, setback, band, by omega, by omega, low, high⟩
    · obtain ⟨z, at_⟩ := List.getElem?_of_mem mem
      obtain ⟨rfl, range⟩ := fitted z x at_
      exact (zoneRangeGood_iff.1 range).1
  · obtain ⟨rfl, rfl⟩ := words_eq isWord isPair
    obtain rfl : zones = zoneCount words := count
    obtain ⟨even, member, kindBits, highBits, few⟩ := heads
    obtain ⟨r4, r5, r6, r7, r9, r10, r11, r12, r14, r16, r17, r18, r19, r20, r21, r23, r25, r27⟩ := ranges
    have inRanges : InRanges words (blockFields words) :=
      ⟨even, kindBits, highBits, few, r4, r5, r6, r7, r9, r10, r11, r12, r14, r16, r17, r18, r19, r20, r21, r23, r25, r27, fun z isFitted => by
        obtain ⟨width, stop, setpoint, setback, band, period, polarity⟩ := zoneRanges z isFitted
        exact zoneRangeGood_iff.2 ⟨width, stop, setpoint, setback, band, period.1, period.2, polarity⟩⟩
    have rules : consistent index (blockFields words) = true := by
      refine consistent_iff.2 ⟨member, fun isBlade => blockFields_zones_nil.2 (blade isBlade).1, unwind, origin,
        fun some_ => segs fun none => some_ (blockFields_zones_nil.2 none), r14, fun isBlade => (blade isBlade).2,
        zonesInOrder_of_chain fun z a b atZ atNext => ?_⟩
      rw [blockFields_zone] at atZ atNext
      split at atNext
      · next isNext =>
        rw [if_pos (by omega)] at atZ
        obtain rfl := Option.some.inj atZ
        obtain rfl := Option.some.inj atNext
        have next : 28 + 10 * (z + 1) = 38 + 10 * z := by omega
        show blockPair words (30 + 10 * z) ≤ blockPair words (28 + 10 * (z + 1))
        rw [next]
        exact inOrder z isNext
      · exact nomatch atNext
    have good : readBlock index words = some (blockFields words) :=
      readBlock_iff.2 ⟨rfl, headGood_iff.2 ⟨signature, length⟩, sumGood_iff.2 sum, inRanges, rules⟩
    rw [good]
    nofun

end Sys2Proof.Machine
end

section
/-! SUPPORT. The report pages (R205, R206): numbers as bytes, parts of one length side by side, content cut into parts. -/

namespace Sys2Proof.Machine

/-! ### Numbers as bytes -/

theorem bigEndian_one (v : Nat) : bigEndian 1 v = [BitVec.ofNat 8 v] := by
  simp [bigEndian]

theorem extractLsb'_ofNat_byte (w v start : Nat) (inside : start + 8 ≤ w) :
    (BitVec.ofNat w v).extractLsb' start 8 = BitVec.ofNat 8 (v / 2 ^ start) := by
  apply BitVec.eq_of_getLsbD_eq
  intro i small
  rw [BitVec.getLsbD_extractLsb', BitVec.getLsbD_ofNat, BitVec.getLsbD_ofNat, Nat.testBit_div_two_pow, Nat.add_comm i start,
    decide_eq_true small, decide_eq_true (show start + i < w by omega), Bool.true_and, Bool.true_and]

theorem bigEndian_two (v : Nat) : bigEndian 2 v = bytes16 (BitVec.ofNat 16 v) := by
  simp [bigEndian, bytes16, extractLsb'_ofNat_byte, List.range_succ]

theorem bigEndian_three (v : Nat) : bigEndian 3 v = bytes24 (BitVec.ofNat 24 v) := by
  simp [bigEndian, bytes24, extractLsb'_ofNat_byte, List.range_succ]

theorem bigEndian_four (v : Nat) : bigEndian 4 v = bytes32 (BitVec.ofNat 32 v) := by
  simp [bigEndian, bytes32, extractLsb'_ofNat_byte, List.range_succ]

theorem bigEndianSigned24_eq (v : Int) : bigEndianSigned24 v = bytes24 (BitVec.ofInt 24 v) := by
  rw [bigEndianSigned24, bigEndian_three, BitVec.ofNat_toNat, BitVec.setWidth_eq]

theorem byte_boolCode (b : Bool) : BitVec.ofNat 8 (boolCode b) = if b then 1 else 0 := by
  cases b <;> rfl

theorem length_bigEndian (n v : Nat) : (bigEndian n v).length = n := by
  simp [bigEndian]

/-! ### Parts of one length side by side -/

theorem length_flatMap_of_const {α : Type} {f : α → List Byte} {m : Nat} (size : ∀ a, (f a).length = m) (l : List α) :
    (l.flatMap f).length = m * l.length := by
  simp [List.length_flatMap, size, Nat.mul_comm]

/-- The part of the element at `z` stands at `m * z`. -/
theorem flatMap_part {α : Type} {f : α → List Byte} {m : Nat} (size : ∀ a, (f a).length = m) {l : List α} {z : Nat} {a : α}
    (found : l[z]? = some a) : ((l.flatMap f).drop (m * z)).take m = f a := by
  induction l generalizing z with
  | nil => simp at found
  | cons b l ih =>
    cases z with
    | zero =>
      obtain rfl : b = a := by simpa using found
      simp [List.flatMap_cons, size]
    | succ z =>
      have later : m * (z + 1) = (f b).length + m * z := by rw [size, Nat.mul_succ, Nat.add_comm]
      rw [List.flatMap_cons, later, List.drop_length_add_append]
      exact ih (by simpa using found)

/-- Behind a leading byte the content begins anew. -/
theorem drop_behind_byte (v n : Nat) (l : List Byte) : (bigEndian 1 v ++ l).drop (1 + n) = l.drop n := by
  rw [bigEndian_one, Nat.add_comm]
  rfl

theorem length_zoneBytes (z : Zone) : (zoneBytes z).length = 11 := by
  simp [zoneBytes, length_bigEndian, bigEndianSigned24]

theorem length_slotBytes (r : SlotRecord) : (slotBytes r).length = 7 := by
  simp [slotBytes, length_bigEndian]

theorem length_featureBytes (f : Feature) : (featureBytes f).length = 11 := by
  unfold featureBytes
  split <;> simp [length_bigEndian]

/-! ### Content cut into parts -/

section
variable {n : Nat} {bytes : List Byte}

theorem cutParts_flatten (pos : 1 ≤ n) (fits : bytes.length ≤ 12 * n) : (cutParts n bytes).flatten = bytes := by
  induction n generalizing bytes with
  | zero => omega
  | succ n ih =>
    unfold cutParts
    split
    · simp
    · rw [List.flatten_cons, ih (by omega) (by simp; omega), List.take_append_drop]

theorem cutParts_pos (pos : 1 ≤ n) : 1 ≤ (cutParts n bytes).length := by
  obtain ⟨n, rfl⟩ : ∃ k, n = k + 1 := ⟨n - 1, by omega⟩
  unfold cutParts
  split <;> simp

theorem cutParts_length : (cutParts n bytes).length ≤ n := by
  induction n generalizing bytes with
  | zero => simp [cutParts]
  | succ n ih =>
    unfold cutParts
    split
    · simp
    · simpa using ih

theorem cutParts_short : ∀ c ∈ cutParts n bytes, c.length ≤ 12 := by
  induction n generalizing bytes with
  | zero => simp [cutParts]
  | succ n ih =>
    unfold cutParts
    split
    next short => simpa using short
    next long => simpa using fun c member => ih c member

theorem cutParts_full : ∀ c ∈ (cutParts n bytes).dropLast, c.length = 12 := by
  induction n generalizing bytes with
  | zero => simp [cutParts]
  | succ n ih =>
    unfold cutParts
    split
    · simp
    · intro c member
      cases rest : cutParts n (bytes.drop 12) with
      | nil => simp [rest] at member
      | cons d l =>
        rw [rest, List.dropLast_cons_of_ne_nil (List.cons_ne_nil d l), List.mem_cons, ← rest] at member
        obtain rfl | member := member
        · simp; omega
        · exact ih c member
end

/-! ### The pages -/

namespace State

/-- The slots of a page (R97, R206). -/
theorem slotsOfPage (m : Fin 8) : ∀ k : Fin 4, (allSlots.filter fun i => decide (i.val / 4 + 2 = m.val + 2)).length = 4 ∧
    ((allSlots.filter fun i => decide (i.val / 4 + 2 = m.val + 2))[k.val]?).map Fin.val = some (4 * m.val + k.val) := by
  revert m
  decide

theorem page_slots (s : State) {n : Nat} (low : 2 ≤ n) (high : n ≤ 9) : s.page n = s.slotPage n := by
  interval_cases n <;> rfl

theorem length_slotPage (s : State) {n : Nat} (low : 2 ≤ n) (high : n ≤ 9) : (s.slotPage n).length = 28 := by
  obtain ⟨m, rfl⟩ : ∃ m, n = m + 2 := ⟨n - 2, by omega⟩
  rw [slotPage, length_flatMap_of_const (m := 7) (fun i => length_slotBytes _), (slotsOfPage ⟨m, by omega⟩ 0).1]

theorem slotPage_part (s : State) {n k : Nat} {i : Fin 32} (low : 2 ≤ n) (small : k < 4) (place : i.val = 4 * (n - 2) + k) :
    ((s.slotPage n).drop (7 * k)).take 7 = slotBytes (s.store.record i) := by
  obtain ⟨m, rfl⟩ : ∃ m, n = m + 2 := ⟨n - 2, by omega⟩
  obtain ⟨j, found, same⟩ := Option.map_eq_some_iff.1 (slotsOfPage ⟨m, by omega⟩ ⟨k, small⟩).2
  obtain rfl : j = i := Fin.ext (by simp only at same; omega)
  exact flatMap_part (f := fun i => slotBytes (s.store.record i)) (fun i => length_slotBytes _) found

theorem length_page0 (s : State) : s.page0.length = 21 := by
  simp [page0, length_bigEndian]

theorem length_page1 (s : State) : s.page1.length = 1 + 11 * s.steam.zones.length := by
  simp [page1, length_bigEndian, length_flatMap_of_const length_zoneBytes]

theorem length_page10 (s : State) : s.page10.length = 1 + 11 * min 3 s.map.features.length := by
  simp [page10, length_bigEndian, length_flatMap_of_const length_featureBytes]

theorem length_page11 (s : State) : s.page11.length = 31 := by
  cases plan : s.plan.entries <;> simp [page11, length_bigEndian, rollBytes, plan]

/-- No page needs more than 4 parts. -/
theorem length_page (s : State) (zones : s.steam.zones.length ≤ 4) {n : Nat} (known : n ≤ 11) : (s.page n).length ≤ 12 * 4 := by
  have page0 := s.length_page0
  have page1 := s.length_page1
  have page10 := s.length_page10
  have page11 := s.length_page11
  obtain rfl | rfl | rfl | rfl | ⟨low, high⟩ : n = 0 ∨ n = 1 ∨ n = 10 ∨ n = 11 ∨ (2 ≤ n ∧ n ≤ 9) := by omega
  · simp only [page]; omega
  · simp only [page]; omega
  · simp only [page]; omega
  · simp only [page]; omega
  · rw [page_slots s low high, length_slotPage s low high]; omega

theorem page0_fields (s : State) :
    s.page0 =
      [BitVec.ofNat 8 s.line.state.code] ++ bytes24 (BitVec.ofNat 24 s.line.vCmd) ++ bytes24 (BitVec.ofNat 24 s.target) ++
        bytes24 (BitVec.ofNat 24 s.line.qIn) ++ bytes24 (BitVec.ofNat 24 s.qOut) ++ bytes24 (BitVec.ofNat 24 s.tracker.stretch) ++
        [s.line.haltOrigin] ++ [BitVec.ofNat 8 s.events.resetCause.code] ++ bytes24 (s.events.latched.setWidth 24) := by
  rw [page0, bigEndian_one, bigEndian_one, bigEndian_three, bigEndian_three, bigEndian_three, bigEndian_three, bigEndian_three,
    bigEndian_three, BitVec.ofNat_toNat]

theorem page11_fields (s : State) :
    s.page11 =
      [BitVec.ofNat 8 s.splice.rollA.state.code] ++ bytes16 (BitVec.ofNat 16 (s.splice.rollA.id.getD 0)) ++
        bytes32 (BitVec.ofNat 32 (s.splice.rollA.remaining.getD 0)) ++ [BitVec.ofNat 8 s.splice.rollB.state.code] ++
        bytes16 (BitVec.ofNat 16 (s.splice.rollB.id.getD 0)) ++ bytes32 (BitVec.ofNat 32 (s.splice.rollB.remaining.getD 0)) ++
        [BitVec.ofNat 8 s.splice.state.code] ++ bytes32 (BitVec.ofNat 32 s.splice.counter) ++ bytes24 (BitVec.ofNat 24 s.splice.vNew) ++
        [BitVec.ofNat 8 s.plan.entries.length] ++ bytes16 (BitVec.ofNat 16 ((s.plan.entries.head?.map PlanEntry.pattern).getD 0)) ++
        bytes16 (BitVec.ofNat 16 ((s.plan.entries.head?.map PlanEntry.count).getD 0)) ++ bytes32 (BitVec.ofNat 32 s.plan.counter) := by
  cases plan : s.plan.entries <;>
    simp [page11, rollBytes, plan, bigEndian_one, bigEndian_two, bigEndian_three, bigEndian_four, List.append_assoc]

end State

theorem zoneBytes_fields (r : Zone) :
    zoneBytes r =
      [if r.faulted then 1 else 0] ++ bytes16 (BitVec.ofNat 16 (r.temperature.getD 0)) ++ bytes16 (BitVec.ofNat 16 r.setpointInUse) ++
        bytes16 (BitVec.ofNat 16 r.duty) ++ bytes24 (BitVec.ofInt 24 r.integrator) ++ [if r.inBand then 1 else 0] := by
  rw [zoneBytes, bigEndian_one, bigEndian_one, bigEndian_two, bigEndian_two, bigEndian_two, bigEndianSigned24_eq, byte_boolCode,
    byte_boolCode]

theorem slotBytes_fields (r : SlotRecord) :
    slotBytes r =
      bytes16 (BitVec.ofNat 16 (r.id.getD 0)) ++ [BitVec.ofNat 8 r.state.code] ++ bytes32 (BitVec.ofNat 32 (r.version.getD 0)) := by
  rw [slotBytes, bigEndian_one, bigEndian_two, bigEndian_four]

theorem causeCode_eq (c : Option RejectCause) : causeCode c = (c.map RejectCause.code).getD 0 := by
  cases c <;> rfl

theorem featureBytes_fields (f : Feature) :
    featureBytes f =
      match f.body with
      | .panel p =>
        [1] ++ bytes32 (BitVec.ofNat 32 p.number) ++ bytes32 f.entry ++ [BitVec.ofNat 8 ((p.cause.map RejectCause.code).getD 0)] ++
          [if f.overdue then 1 else 0]
      | .splice n _ => [2] ++ bytes32 (BitVec.ofNat 32 n) ++ bytes32 f.entry ++ [0] ++ [if f.overdue then 1 else 0] := by
  unfold featureBytes
  cases f.body with
  | panel p => simp only [bigEndian_one, bigEndian_four, causeCode_eq, byte_boolCode, BitVec.ofNat_toNat, BitVec.setWidth_eq]; rfl
  | splice n sp => simp only [bigEndian_one, bigEndian_four, byte_boolCode, BitVec.ofNat_toNat, BitVec.setWidth_eq]; rfl

/-! ### The parts join the general FIFO -/

section
variable {s : State} {parts : List Payload}

theorem offerReports_taken (room : s.link.generalFifo.length + parts.length ≤ 4) (single : s.events.has .duplicateIndex = false) :
    (s.offerReports parts).link.generalFifo.map (fun f => f.payload) = s.link.generalFifo.map (fun f => f.payload) ++ parts ∧
      s.offerReports parts =
        { s with
          link :=
            { s.link with
              generalFifo := (s.offerReports parts).link.generalFifo
              serial := (s.offerReports parts).link.serial } } := by
  unfold State.offerReports
  rw [if_pos ⟨room, single⟩]
  refine ⟨?_, rfl⟩
  simp only [List.map_append, List.map_map, Function.comp_def]
  rw [List.zipIdx_map_fst]

theorem offerReports_dropped (closed : 4 < s.link.generalFifo.length + parts.length ∨ s.events.has .duplicateIndex = true) :
    s.offerReports parts = s := by
  unfold State.offerReports
  rw [if_neg]
  rintro ⟨room, single⟩
  obtain full | doubled := closed
  · omega
  · simp [doubled] at single
end

/-- The parts of a page join the general FIFO together, or none does. -/
theorem exec_reportReq {s : State} {bytes : List Byte} {sender : BitVec 4} {targets : BitVec 16} {page : Byte}
    (heard : s.hears bytes ⟨sender, .reportReq targets page⟩) (zones : s.steam.zones.length ≤ 4) (known : page.toNat ≤ 11) :
    ∃ contents : List (List Byte), contents.flatten = s.page page.toNat ∧ 1 ≤ contents.length ∧ contents.length ≤ 4 ∧
      (∀ c ∈ contents, c.length ≤ 12) ∧ (∀ c ∈ contents.dropLast, c.length = 12) ∧
      (s.link.generalFifo.length + contents.length ≤ 4 → s.events.has .duplicateIndex = false →
        ∃ t, exec (.reportReq bytes) s = .next t ∧
          t.link.generalFifo.map (fun f => f.payload) =
            s.link.generalFifo.map (fun f => f.payload) ++
              contents.zipIdx.map (fun (c, k) => Payload.report 0 page (BitVec.ofNat 8 k) c) ∧
          t = { s.heard with link := { s.heard.link with generalFifo := t.link.generalFifo, serial := t.link.serial } }) ∧
      (4 < s.link.generalFifo.length + contents.length ∨ s.events.has .duplicateIndex = true →
        exec (.reportReq bytes) s = .next s.heard) := by
  have taken : exec (.reportReq bytes) s =
      .next (if 11 < page.toNat then s.heard.refuse .reportReq .outOfRange else s.heard.offerReports (s.heard.reportParts page.toNat)) :=
    exec_takes heard
  rw [if_neg (by omega)] at taken
  have parts : s.heard.reportParts page.toNat =
      (cutParts 4 (s.page page.toNat)).zipIdx.map fun (c, k) => Payload.report 0 page (BitVec.ofNat 8 k) c := by
    rw [State.reportParts, BitVec.ofNat_toNat, BitVec.setWidth_eq]
    rfl
  have size : (s.heard.reportParts page.toNat).length = (cutParts 4 (s.page page.toNat)).length := by simp [parts]
  refine ⟨cutParts 4 (s.page page.toNat), cutParts_flatten (by omega) (s.length_page zones known), cutParts_pos (by omega),
    cutParts_length, cutParts_short, cutParts_full, fun room single => ?_, fun closed => ?_⟩
  · obtain ⟨fifo, rest⟩ :=
      offerReports_taken (s := s.heard) (parts := s.heard.reportParts page.toNat) (by rw [size]; exact room) single
    exact ⟨_, taken, parts ▸ fifo, rest⟩
  · rw [taken, offerReports_dropped (by rw [size]; exact closed)]

/-- Settles O28: the parts of a page by the induction on the cut, each page by the lengths and fields of its records. -/
theorem reportsAreWholeAndLaidOut : Obligations.ReportsAreWholeAndLaidOut := by
  refine ⟨fun s bytes sender targets page heard zones => ⟨fun unknown => ?_, exec_reportReq heard zones⟩, fun s =>
    ⟨s.length_page0, s.length_page1, fun n low high => ?_, s.length_page10, s.length_page11, s.page0_fields, ?_, fun z r found => ?_,
      fun n k i low small place => ?_, ?_, fun k f small found => ?_, s.page11_fields, rfl, rfl, rfl, rfl, rfl⟩⟩
  · have taken : exec (.reportReq bytes) s =
        .next (if 11 < page.toNat then s.heard.refuse .reportReq .outOfRange else s.heard.offerReports (s.heard.reportParts page.toNat)) :=
      exec_takes heard
    rw [taken, if_pos unknown]
    rfl
  · rw [s.page_slots low high, s.length_slotPage low high]
  · rw [State.page, State.page1, bigEndian_one]; rfl
  · rw [State.page, State.page1, drop_behind_byte, flatMap_part length_zoneBytes found, zoneBytes_fields]
  · rw [s.page_slots low (by omega), s.slotPage_part low small place, slotBytes_fields]
  · rw [State.page, State.page10, bigEndian_one]; rfl
  · have shown : (s.map.features.take 3)[k]? = some f := (List.getElem?_take_of_lt small).trans found
    rw [State.page, State.page10, drop_behind_byte]
    exact (flatMap_part length_featureBytes shown).trans (featureBytes_fields f)

end Sys2Proof.Machine
end

section
/-! SUPPORT. Several features take their exits one after the other (R77, R79, R82). -/

namespace Sys2Proof.Machine

/-- Payloads as they join a FIFO, from this serial number on. -/
def framesFrom : Nat → List Payload → List TxFrame
  | _, [] => []
  | serial, p :: ps => { id := serial, payload := p } :: framesFrom (serial + 1) ps

theorem framesFrom_payloads (serial : Nat) (ps : List Payload) : (framesFrom serial ps).map (fun x => x.payload) = ps := by
  induction ps generalizing serial with
  | nil => rfl
  | cons p ps ih => exact congrArg _ (ih (serial + 1))

section
variable {s : State} {waiting after : List Feature}

/-- The features that wait have left as HANDOFFs, in list order. -/
def State.sentOn (s : State) (waiting after : List Feature) : State :=
  { s with
    map := { s.map with features := after }
    link :=
      { s.link with
        handoffFifo := s.link.handoffFifo ++ framesFrom s.link.serial (waiting.map s.handoffOf)
        serial := s.link.serial + waiting.length } }

theorem State.sentOn_payloads :
    (s.sentOn waiting after).link.handoffFifo.map (fun x => x.payload) =
      s.link.handoffFifo.map (fun x => x.payload) ++ waiting.map s.handoffOf := by
  rw [State.sentOn, List.map_append, framesFrom_payloads]

theorem State.sentOn_link :
    (s.sentOn waiting after).link =
      { s.link with
        handoffFifo := (s.sentOn waiting after).link.handoffFifo
        serial := s.link.serial + waiting.length } := rfl

theorem State.sentOn_cons {f : Feature} {all : List Feature} :
    (State.pushHandoff { s with map := { s.map with features := all } } (s.handoffOf f)).sentOn waiting after =
      s.sentOn (f :: waiting) after := by
  have fifo : (s.link.handoffFifo ++ [{ id := s.link.serial, payload := s.handoffOf f }]) ++
      framesFrom (s.link.serial + 1) (waiting.map s.handoffOf) =
        s.link.handoffFifo ++ framesFrom s.link.serial ((f :: waiting).map s.handoffOf) :=
    List.append_assoc ..
  have serial : s.link.serial + 1 + waiting.length = s.link.serial + (f :: waiting).length := by
    rw [List.length_cons]
    omega
  unfold State.sentOn
  rw [← fifo, ← serial]
  rfl

/-- Every feature that waits leaves through the gate of the last station. -/
theorem State.takeHeld_last {n : Nat} (features : s.map.features = waiting ++ after) (held : ∀ g ∈ waiting, g.isHeld = true)
    (filled : ∀ g ∈ waiting, g.hasPending = false) (behind : ∀ g ∈ after, g.isHeld = false) (last : s.isLast = true)
    (enough : waiting.length ≤ n) :
    State.takeHeld n s = { s with map := { features := after, gateOpen := waiting.foldl s.gateAfter s.map.gateOpen } } := by
  induction waiting generalizing s n with
  | nil =>
    obtain rfl : after = s.map.features := features.symm
    exact State.takeHeld_none behind n
  | cons f waiting ih =>
    obtain ⟨n, rfl⟩ : ∃ k, n = k + 1 := ⟨n - 1, by rw [List.length_cons] at enough; omega⟩
    have heldF := held f (List.mem_cons_self ..)
    have front : s.map.features = [] ++ f :: (waiting ++ after) := features
    have rest := ih (s := { s with map := { features := waiting ++ after, gateOpen := s.gateAfter s.map.gateOpen f } }) rfl
      (fun g mem => held g (List.mem_cons_of_mem _ mem)) (fun g mem => filled g (List.mem_cons_of_mem _ mem)) last
      (Nat.le_of_succ_le_succ enough)
    have exit := congrArg (State.takeHeld n) (State.exitHeld_last front (List.forall_mem_nil _) heldF last)
    exact ((State.takeHeld_succ front (List.forall_mem_nil _) heldF (filled f (List.mem_cons_self ..)) n).trans exit).trans rest

/-- Every feature that waits leaves as a HANDOFF, while there is room for them all. -/
theorem State.takeHeld_sent {n : Nat} (features : s.map.features = waiting ++ after) (held : ∀ g ∈ waiting, g.isHeld = true)
    (filled : ∀ g ∈ waiting, g.hasPending = false) (behind : ∀ g ∈ after, g.isHeld = false) (notLast : s.isLast = false)
    (clear : ∀ g ∈ s.map.features, g.overdue = false) (room : s.link.handoffFifo.length + waiting.length ≤ 8)
    (single : s.events.has .duplicateIndex = false) (enough : waiting.length ≤ n) :
    State.takeHeld n s = s.sentOn waiting after := by
  induction waiting generalizing s n with
  | nil =>
    obtain rfl : after = s.map.features := features.symm
    have same : s.sentOn [] s.map.features = s := by
      rw [State.sentOn, List.map_nil, framesFrom, List.append_nil]
      rfl
    rw [same]
    exact State.takeHeld_none behind n
  | cons f waiting ih =>
    rw [List.length_cons] at room
    obtain ⟨n, rfl⟩ : ∃ k, n = k + 1 := ⟨n - 1, by rw [List.length_cons] at enough; omega⟩
    have heldF := held f (List.mem_cons_self ..)
    have front : s.map.features = [] ++ f :: (waiting ++ after) := features
    have rest := ih (s := State.pushHandoff { s with map := { s.map with features := waiting ++ after } } (s.handoffOf f)) rfl
      (fun g mem => held g (List.mem_cons_of_mem _ mem)) (fun g mem => filled g (List.mem_cons_of_mem _ mem)) notLast
      (fun g mem => clear g (features ▸ List.mem_cons_of_mem _ mem))
      (by rw [State.pushHandoff_fifo, List.length_append, List.length_singleton]; dsimp only; omega) single
      (Nat.le_of_succ_le_succ enough)
    have exit := congrArg (State.takeHeld n)
      (State.exitHeld_sent front (List.forall_mem_nil _) heldF notLast (any_eq_false_of clear) (State.handoffRoom_iff.2 ⟨by omega, single⟩))
    exact (((State.takeHeld_succ front (List.forall_mem_nil _) heldF (filled f (List.mem_cons_self ..)) n).trans exit).trans rest).trans
      State.sentOn_cons

theorem State.takeExits_last (features : s.map.features = waiting ++ after) (held : ∀ g ∈ waiting, g.isHeld = true)
    (filled : ∀ g ∈ waiting, g.hasPending = false) (behind : ∀ g ∈ after, g.isHeld = false) (last : s.isLast = true) :
    s.takeExits = { s with map := { features := after, gateOpen := waiting.foldl s.gateAfter s.map.gateOpen } } :=
  State.takeHeld_last features held filled behind last (by rw [features, List.length_append]; omega)

theorem State.takeExits_sent (features : s.map.features = waiting ++ after) (held : ∀ g ∈ waiting, g.isHeld = true)
    (filled : ∀ g ∈ waiting, g.hasPending = false) (behind : ∀ g ∈ after, g.isHeld = false) (notLast : s.isLast = false)
    (clear : ∀ g ∈ s.map.features, g.overdue = false) (room : s.link.handoffFifo.length + waiting.length ≤ 8)
    (single : s.events.has .duplicateIndex = false) : s.takeExits = s.sentOn waiting after :=
  State.takeHeld_sent features held filled behind notLast clear room single (by rw [features, List.length_append]; omega)

/-! ### SPLICEs that wait (R77, R79) -/

variable {numbers : List (Nat × Bool)}

theorem splice_of_bodies (bodies : waiting.map (fun g => g.body) = numbers.map fun x => .splice x.1 x.2) :
    ∀ g ∈ waiting, ∃ n a, g.body = .splice n a := by
  intro g mem
  obtain ⟨x, -, same⟩ := List.mem_map.1 (bodies ▸ List.mem_map_of_mem mem)
  exact ⟨x.1, x.2, same.symm⟩

theorem Feature.hasPending_splice {f : Feature} {n : Nat} {a : Bool} (body : f.body = .splice n a) : f.hasPending = false := by
  rw [Feature.hasPending, body]

theorem State.handoffOf_splices (s : State) (bodies : waiting.map (fun g => g.body) = numbers.map fun x => .splice x.1 x.2) :
    waiting.map s.handoffOf = numbers.map fun x => .handoffSplice (BitVec.ofNat 32 x.1) := by
  induction waiting generalizing numbers with
  | nil =>
    obtain rfl : numbers = [] := List.map_eq_nil_iff.1 bodies.symm
    rfl
  | cons f waiting ih =>
    cases numbers with
    | nil => cases bodies
    | cons x numbers =>
      obtain ⟨body, rest⟩ := List.cons.inj bodies
      have body : f.body = .splice x.1 x.2 := body
      have own : s.handoffOf f = .handoffSplice (BitVec.ofNat 32 x.1) := by rw [State.handoffOf, body]
      rw [List.map_cons, List.map_cons, own, ih rest]

theorem State.gateAfter_splices (s : State) (splices : ∀ g ∈ waiting, ∃ n a, g.body = .splice n a) (gate : Bool) :
    waiting.foldl s.gateAfter gate = gate := by
  induction waiting generalizing gate with
  | nil => rfl
  | cons f waiting ih =>
    obtain ⟨n, a, body⟩ := splices f (List.mem_cons_self ..)
    rw [List.foldl_cons, State.gateAfter_splice body, ih fun g mem => splices g (List.mem_cons_of_mem _ mem)]

end

/-! ### The features that are not charged or filled stay as they are -/

theorem Feature.mapPanel_of_body {f : Feature} {p : Panel} (body : f.body = .panel p) (g : Panel → Panel) :
    f.mapPanel g = { f with body := .panel (g p) } := by
  rw [Feature.mapPanel, body]

/-- A change of the record of one PANEL of the list. -/
theorem modifyPanel_of_split {before after : List Feature} {f : Feature} {p : Panel} (absent : p.number ∉ panelNumbers before)
    (body : f.body = .panel p) (g : Panel → Panel) :
    modifyFirst (fun f => f.isPanel p.number) (fun f => f.mapPanel g) (before ++ f :: after) =
      before ++ { f with body := .panel (g p) } :: after := by
  rw [modifyFirst_append (isPanel_false_of_not_mem absent) (Feature.isPanel_of_body body), Feature.mapPanel_of_body body]

end Sys2Proof.Machine
end

section
/-! SUPPORT. A Web Map lookup fills what waited for it, and releases the exit and the judgement that waited (R77, R89, R172, R176 to R178). -/

namespace Sys2Proof.Machine

theorem Panel.fill_eq (p : Panel) (nominal dose : Nat) :
    p.fill nominal dose =
      { p with
        nominal := some (p.nominal.getD nominal)
        outLen := if p.outLen = .asNominal then .value (p.nominal.getD nominal) else p.outLen
        dose := if p.dose = .pending then .value dose else p.dose } := by
  have outLen : p.outLen.settle (p.nominal.getD nominal) = if p.outLen = .asNominal then .value (p.nominal.getD nominal) else p.outLen := by
    cases p.outLen <;> rfl
  rw [Panel.fill, outLen]
  cases dose : p.dose <;> simp

section
variable {s : State} {n nominal dose : Nat} {before after : List Feature} {f : Feature} {p : Panel}

/-- The state after a lookup's values have been filled in, PATTERN_MISSING with them where nothing was found. -/
def State.filled (s : State) (n : Nat) (found : Option Pattern) (nominal dose : Nat) : State :=
  { s.fillPending n nominal dose with events := if found = none then s.events.set .patternMissing else s.events }

variable {found : Option Pattern}

theorem State.deliverToMap_eq (s : State) (n : Nat) (found : Option Pattern) :
    s.deliverToMap n found =
      if (s.filled n found (s.nominalFrom found) (s.doseFrom found)).bothWait then
        State.releaseBoth (Config.judgeFirst s.free)
          { s.filled n found (s.nominalFrom found) (s.doseFrom found) with free := s.free + 1 }
      else (s.filled n found (s.nominalFrom found) (s.doseFrom found)).releaseBoth false := by
  cases found <;> rfl

/-- A lookup served for the Web Map is delivered while the port goes on. -/
theorem exec_webMapLookupComplete {v : Service} (serving : s.store.serving = some v) (requester : v.lookup.requester = .webMap) :
    exec .webMapLookupComplete s = .next (State.deliverToMap { s with store := s.store.endService } v.lookup.panel v.found) := by
  show execWebMapLookupComplete s = _
  rw [execWebMapLookupComplete, serving]
  exact congrArg _ (if_pos requester)

theorem State.filled_features (features : s.map.features = before ++ f :: after) (body : f.body = .panel p)
    (absent : p.number ∉ panelNumbers before) :
    (s.filled p.number found nominal dose).map.features = before ++ { f with body := .panel (p.fill nominal dose) } :: after := by
  show modifyFirst _ _ s.map.features = _
  rw [features]
  exact modifyPanel_of_split absent body _

/-- The filled panel waits for nothing more, where its output length did not wait for the Sequencer. -/
theorem Panel.fill_hasPending (ready : p.outLen ≠ .pending) :
    Feature.hasPending { f with body := .panel (p.fill nominal dose) } = false := by
  rw [Panel.fill_eq]
  by_cases waits : p.outLen = .asNominal <;> by_cases open_ : p.dose = .pending <;>
    simp [Feature.hasPending, waits, open_, ready]

/-- The segment that waited for the dose has it. -/
theorem Segment.fill_open {g : Segment} (own : g.panel = n) (waits : g.required = none) : g.fill n dose = { g with required := some dose } :=
  if_pos ⟨own, waits⟩

theorem Segment.fill_close (g : Segment) : (g.fill n dose).close = g.close := by
  unfold Segment.fill
  split <;> rfl

/-- No segment is due while none has reached the exit. -/
theorem State.segmentDue_none (short : ∀ g ∈ s.dose.queue, travel s.tracker.position g.close < (s.cfg.lSpan : Int)) : s.segmentDue = none := by
  cases queue : s.dose.queue with
  | nil => rw [State.segmentDue, queue]
  | cons g rest =>
    have inside : ¬ s.segmentOut g = true := by
      rw [State.segmentOut_iff]
      have := short g (queue ▸ List.mem_cons_self ..)
      omega
    rw [State.segmentDue_cons queue, if_neg (by simp [inside])]

theorem State.filled_segmentDue_none (short : ∀ g ∈ s.dose.queue, travel s.tracker.position g.close < (s.cfg.lSpan : Int)) :
    (s.filled n found nominal dose).segmentDue = none := by
  refine State.segmentDue_none fun g mem => ?_
  obtain ⟨h, inQueue, rfl⟩ := List.mem_map.1 (show g ∈ s.dose.queue.map fun g => g.fill n dose from mem)
  rw [Segment.fill_close]
  exact short h inQueue

/-- Without a segment to judge the exits that waited are taken. -/
theorem State.releaseBoth_exits (noneDue : s.segmentDue = none) (stays : s.takeExits.segmentDue = none) (free : Nat) (judgeFirst : Bool) :
    (if s.bothWait then State.releaseBoth judgeFirst { s with free := free } else s.releaseBoth false) = s.takeExits := by
  have one : s.bothWait = false := by rw [State.bothWait, noneDue]; exact Bool.and_false _
  rw [one]
  exact State.judgeAll_none stays _

/-- The segments that are due are read off the queue, the position and L_span. -/
theorem State.segmentDue_congr {s u : State} (dose : u.dose = s.dose) (tracker : u.tracker.position = s.tracker.position)
    (cfg : u.cfg = s.cfg) : u.segmentDue = s.segmentDue := by
  unfold State.segmentDue State.segmentOut
  rw [dose, tracker, cfg]

theorem State.takeExits_segmentDue (s : State) : s.takeExits.segmentDue = s.segmentDue :=
  State.segmentDue_congr (by simp) (by simp) (by simp)

/-- Nothing is due for judgement: the exits that waited are taken. -/
theorem exec_webMapLookupComplete_exits {v : Service} (serving : s.store.serving = some v) (requester : v.lookup.requester = .webMap)
    (short : ∀ g ∈ s.dose.queue, travel s.tracker.position g.close < (s.cfg.lSpan : Int))
    (nominalIs : nominal = s.nominalFrom v.found) (doseIs : dose = s.doseFrom v.found) :
    exec .webMapLookupComplete s =
      .next (State.filled { s with store := s.store.endService } v.lookup.panel v.found nominal dose).takeExits := by
  have none := State.filled_segmentDue_none (s := { s with store := s.store.endService }) (n := v.lookup.panel) (found := v.found)
    (nominal := nominal) (dose := dose) short
  rw [exec_webMapLookupComplete serving requester, State.deliverToMap_eq]
  subst nominalIs doseIs
  exact congrArg _ (State.releaseBoth_exits none ((State.takeExits_segmentDue _).trans none) _ _)

theorem State.nominalFrom_of {s : State} (known : ∀ q, found = some q → nominal = q.nominal ∧ dose = q.dose)
    (missing : found = none → nominal = s.tracker.lastInterval.getD s.cfg.lSpan ∧ dose = s.cfg.doseDefault) :
    nominal = s.nominalFrom found ∧ dose = s.doseFrom found := by
  cases found with
  | none => exact missing rfl
  | some q => exact known q rfl

/-! ### One segment is judged (R176, R177) -/

theorem State.judge_queue (s : State) (g : Segment) : (s.judge g).dose.queue = s.dose.queue.tail := by
  by_cases under : g.underdosed = true ∧ g.panel ≠ s.dose.lastRejected
  · rw [State.judge_under under.1 under.2]
    simp
  · rw [State.judge_good under]
    rfl

/-- The head segment alone is due. -/
theorem State.judgeAll_one {g : Segment} {rest : List Segment} (queue : s.dose.queue = g :: rest)
    (out : (s.cfg.lSpan : Int) ≤ travel s.tracker.position g.close) (ready : g.waits = false)
    (short : ∀ h ∈ rest, travel s.tracker.position h.close < (s.cfg.lSpan : Int)) :
    State.judgeAll s.dose.queue.length s = s.judge g := by
  have due : s.segmentDue = some g := by
    rw [State.segmentDue_cons queue, if_pos (by rw [State.segmentOut_iff.2 out, ready]; rfl)]
  have none : (s.judge g).segmentDue = Option.none := by
    refine State.segmentDue_none ?_
    rw [State.judge_queue, queue]
    simpa using short
  rw [queue, List.length_cons, State.judgeAll, due]
  exact State.judgeAll_none none _

end

/-! ### What a filled state shows -/

section
variable {s : State} {found : Option Pattern} {nominal dose len : Nat} {before after : List Feature} {f : Feature} {p : Panel}

theorem State.filled_duplicate (n : Nat) : (s.filled n found nominal dose).events.has .duplicateIndex = s.events.has .duplicateIndex := by
  show (if found = none then s.events.set .patternMissing else s.events).has .duplicateIndex = _
  split
  · exact EventLatch.has_set_other nofun
  · rfl

/-- The HANDOFF of the filled panel carries the output length at a blade station, else the nominal length. -/
theorem State.handoffOf_filled {u : State} (away : u.cfg.blade = false → len = p.nominal.getD nominal)
    (blade : u.cfg.blade = true → p.outLen = .value len ∨ p.outLen = .asNominal ∧ len = p.nominal.getD nominal) (cause : Option RejectCause) :
    u.handoffOf { f with body := .panel { p.fill nominal dose with cause := cause } } =
      .handoffPanel (BitVec.ofNat 32 p.number) (BitVec.ofNat 16 p.pattern) (BitVec.ofNat 32 len)
        (BitVec.ofNat 8 ((cause.map RejectCause.code).getD 0)) := by
  rw [State.handoffOf, Panel.fill_eq]
  dsimp only
  rw [causeCode_eq]
  cases fitted : u.cfg.blade with
  | false => rw [away fitted]; rfl
  | true =>
    rcases blade fitted with given | ⟨waits, same⟩
    · rw [if_pos rfl, given]; rfl
    · rw [if_pos rfl, waits, if_pos rfl, same]; rfl

end

end Sys2Proof.Machine
end

section
/-! SUPPORT. What a Web Map lookup releases (R77, R176 to R178). -/

namespace Sys2Proof.Machine

section
variable {s : State} {v : Service} {nominal dose len : Nat} {before after : List Feature} {f : Feature} {p : Panel}

/-- The filling lets no feature reach the exit. -/
theorem State.filled_idle {found : Option Pattern} (features : s.map.features = before ++ f :: after) (body : f.body = .panel p)
    (absent : p.number ∉ panelNumbers before) (fresh : ∀ g ∈ s.map.features, g.reached = false) :
    ∀ h ∈ (s.filled p.number found nominal dose).map.features, h.isHeld = false := by
  rw [State.filled_features features body absent]
  rw [features] at fresh
  intro g mem
  rcases List.mem_append.1 mem with inBefore | rest
  · exact Feature.isHeld_fresh (fresh g (List.mem_append_left _ inBefore))
  · rcases List.mem_cons.1 rest with rfl | inAfter
    · exact Feature.isHeld_fresh (f := { f with body := .panel (p.fill nominal dose) })
        (fresh f (List.mem_append_right _ (List.mem_cons_self ..)))
    · exact Feature.isHeld_fresh (fresh g (List.mem_append_right _ (List.mem_cons_of_mem _ inAfter)))

/-- The lookup fills its panel while nothing waits to be taken. -/
theorem exec_webMapLookupComplete_fills (serving : s.store.serving = some v) (requester : v.lookup.requester = .webMap)
    (features : s.map.features = before ++ f :: after) (body : f.body = .panel p) (number : p.number = v.lookup.panel)
    (absent : p.number ∉ panelNumbers before) (fresh : ∀ g ∈ s.map.features, g.reached = false)
    (short : ∀ g ∈ s.dose.queue, travel s.tracker.position g.close < (s.cfg.lSpan : Int))
    (nominalIs : nominal = s.nominalFrom v.found) (doseIs : dose = s.doseFrom v.found) :
    exec .webMapLookupComplete s =
      .next (State.filled { s with store := s.store.endService } p.number v.found nominal dose) := by
  rw [exec_webMapLookupComplete_exits serving requester short nominalIs doseIs, ← number,
    State.takeExits_none (State.filled_idle (s := { s with store := s.store.endService }) features body absent fresh)]

end

/-- The exit that waited at the head of the list, and the SPLICEs behind it. -/
theorem exec_webMapLookupComplete_releases {s : State} {v : Service} {nominal dose len : Nat} {f : Feature} {p : Panel}
    {held after : List Feature} {numbers : List (Nat × Bool)}
    (serving : s.store.serving = some v) (requester : v.lookup.requester = .webMap)
    (body : f.body = .panel p) (number : p.number = v.lookup.panel)
    (nominalIs : nominal = s.nominalFrom v.found) (doseIs : dose = s.doseFrom v.found)
    (away : s.cfg.blade = false → len = p.nominal.getD nominal ∧ p.outLen ≠ .pending)
    (blade : s.cfg.blade = true → p.outLen = .value len ∨ p.outLen = .asNominal ∧ len = p.nominal.getD nominal)
    (features : s.map.features = f :: (held ++ after)) (reached : f.reached = true) (notLate : f.overdue = false)
    (waits : ∀ g ∈ held, g.reached = true ∧ g.overdue = false)
    (bodies : held.map (fun g => g.body) = numbers.map (fun x => .splice x.1 x.2))
    (behind : ∀ g ∈ after, g.reached = false ∧ g.overdue = false)
    (short : ∀ g ∈ s.dose.queue, travel s.tracker.position g.close < (s.cfg.lSpan : Int)) :
    (s.isLast = true →
      ∃ t, exec .webMapLookupComplete s = .next t ∧ t.map.features = after ∧ t.link = s.link ∧ t.line = s.line ∧
        t.map.gateOpen = if s.cfg.rejectGate then p.cause.isSome else s.map.gateOpen) ∧
    (s.isLast = false → s.link.handoffFifo.length + held.length < 8 → s.events.has .duplicateIndex = false →
      ∃ t, exec .webMapLookupComplete s = .next t ∧ t.map.features = after ∧ t.line = s.line ∧ t.map.gateOpen = s.map.gateOpen ∧
        t.link.handoffFifo.map (fun x => x.payload) =
          s.link.handoffFifo.map (fun x => x.payload) ++
            .handoffPanel (BitVec.ofNat 32 p.number) (BitVec.ofNat 16 p.pattern) (BitVec.ofNat 32 len)
                (BitVec.ofNat 8 ((p.cause.map RejectCause.code).getD 0)) ::
              numbers.map (fun x => .handoffSplice (BitVec.ofNat 32 x.1))) := by
  let u : State := State.filled { s with store := s.store.endService } p.number v.found nominal dose
  let g : Feature := { f with body := .panel (p.fill nominal dose) }
  have taken : exec .webMapLookupComplete s = .next u.takeExits := by
    rw [exec_webMapLookupComplete_exits serving requester short nominalIs doseIs, ← number]
  have ready : p.outLen ≠ .pending := by
    cases fitted : s.cfg.blade with
    | false => exact (away fitted).2
    | true =>
      rcases blade fitted with given | ⟨waits, -⟩
      · rw [given]; nofun
      · rw [waits]; nofun
  have list : u.map.features = (g :: held) ++ after :=
    State.filled_features (s := { s with store := s.store.endService }) (before := []) features body (by simp [panelNumbers])
  have splices := splice_of_bodies bodies
  have allHeld : ∀ h ∈ g :: held, h.isHeld = true := fun h mem => (List.mem_cons.1 mem).elim
    (fun same => by rw [same]; show (f.reached && !f.overdue) = true; rw [reached, notLate]; rfl)
    (fun later => by rw [Feature.isHeld, (waits h later).1, (waits h later).2]; rfl)
  have allFilled : ∀ h ∈ g :: held, h.hasPending = false := fun h mem => (List.mem_cons.1 mem).elim
    (fun same => same ▸ Panel.fill_hasPending ready)
    (fun later => by obtain ⟨n, a, spliced⟩ := splices h later; exact Feature.hasPending_splice spliced)
  have noneBehind : ∀ h ∈ after, h.isHeld = false := fun h mem => Feature.isHeld_fresh (behind h mem).1
  refine ⟨fun last => ?_, fun notLast room single => ?_⟩
  · have exits := State.takeExits_last list allHeld allFilled noneBehind last
    refine ⟨_, taken.trans (congrArg _ exits), rfl, rfl, rfl, ?_⟩
    show (g :: held).foldl u.gateAfter u.map.gateOpen = _
    rw [List.foldl_cons, State.gateAfter_splices u splices]
    show (if s.cfg.rejectGate then p.cause.isSome else s.map.gateOpen) = _
    rfl
  · have clear : ∀ h ∈ u.map.features, h.overdue = false := by
      rw [list]
      intro h mem
      rcases List.mem_append.1 mem with first | later
      · rcases List.mem_cons.1 first with rfl | inHeld
        · exact notLate
        · exact (waits h inHeld).2
      · exact (behind h later).2
    have exits := State.takeExits_sent list allHeld allFilled noneBehind notLast clear
      (show s.link.handoffFifo.length + (held.length + 1) ≤ 8 by omega) ((State.filled_duplicate p.number).trans single)
    refine ⟨_, taken.trans (congrArg _ exits), rfl, rfl, rfl, ?_⟩
    rw [State.sentOn_payloads, List.map_cons, State.handoffOf_splices u bodies]
    exact congrArg (fun x => _ ++ x :: _)
      (State.handoffOf_filled (u := u) (f := f) (dose := dose) (fun fitted => (away fitted).1) blade p.cause)

section
variable {s : State} {v : Service} {nominal dose len : Nat} {f : Feature} {p : Panel} {g : Segment} {rest : List Segment}

/-- The head segment's judgement, while no exit waits. -/
theorem exec_webMapLookupComplete_judges (serving : s.store.serving = some v) (requester : v.lookup.requester = .webMap)
    (number : p.number = v.lookup.panel) (nominalIs : nominal = s.nominalFrom v.found) (doseIs : dose = s.doseFrom v.found)
    (queue : s.dose.queue = g :: rest) (own : g.panel = p.number) (open_ : g.required = none)
    (out : (s.cfg.lSpan : Int) ≤ travel s.tracker.position g.close)
    (short : ∀ h ∈ rest, travel s.tracker.position h.close < (s.cfg.lSpan : Int))
    (idle : ∀ h ∈ (State.filled { s with store := s.store.endService } p.number v.found nominal dose).map.features, h.isHeld = false) :
    exec .webMapLookupComplete s =
      .next ((State.filled { s with store := s.store.endService } p.number v.found nominal dose).judge { g with required := some dose }) := by
  let u : State := State.filled { s with store := s.store.endService } p.number v.found nominal dose
  have filled : u.dose.queue = { g with required := some dose } :: rest.map fun h => h.fill p.number dose := by
    show s.dose.queue.map _ = _
    rw [queue, List.map_cons, Segment.fill_open own open_]
  have later : ∀ h ∈ rest.map fun h => h.fill p.number dose, travel u.tracker.position h.close < (u.cfg.lSpan : Int) := by
    intro h mem
    obtain ⟨k, inRest, rfl⟩ := List.mem_map.1 mem
    rw [Segment.fill_close]
    exact short k inRest
  have one : u.bothWait = false := by rw [State.bothWait, any_eq_false_of idle]; rfl
  have released : u.releaseBoth false = u.judge { g with required := some dose } := by
    have exits : u.takeExits = u := State.takeExits_none idle
    show State.judgeAll u.takeExits.dose.queue.length u.takeExits = _
    rw [exits]
    exact State.judgeAll_one filled out (by simp [Segment.waits]) later
  rw [exec_webMapLookupComplete serving requester, State.deliverToMap_eq, ← number]
  subst nominalIs doseIs
  exact congrArg _ ((if_neg (by show ¬ u.bothWait = true; rw [one]; nofun)).trans released)

/-- The filled record of a PANEL of the list. -/
theorem State.filled_panel? {found : Option Pattern} {before after : List Feature} (features : s.map.features = before ++ f :: after)
    (body : f.body = .panel p) (absent : p.number ∉ panelNumbers before) :
    (s.filled p.number found nominal dose).panel? p.number = some (p.fill nominal dose) :=
  State.panel?_of_split (p := p.fill nominal dose) (State.filled_features features body absent) absent rfl

/-- The segment that waited for the dose is judged. -/
theorem State.judge_filled {found : Option Pattern} {before after : List Feature} (features : s.map.features = before ++ f :: after)
    (body : f.body = .panel p) (absent : p.number ∉ panelNumbers before) (queue : s.dose.queue = g :: rest) (own : g.panel = p.number)
    (spliceFree : g.splice = false) (unrejected : g.rejected = false) :
    ∃ t, (s.filled p.number found nominal dose).judge { g with required := some dose } = t ∧
      t.dose.queue = rest.map (fun h => h.fill p.number dose) ∧ t.link = s.link ∧ t.line = s.line ∧
      (dose ≤ g.dose ∨ p.number = s.dose.lastRejected →
        t.dose.lastRejected = s.dose.lastRejected ∧ (t.panel? p.number).map (fun q => q.cause) = some p.cause) ∧
      (g.dose < dose → p.number ≠ s.dose.lastRejected →
        t.dose.lastRejected = p.number ∧ (t.panel? p.number).map (fun q => q.cause) = some (some (p.cause.getD .underdosed))) := by
  let u : State := s.filled p.number found nominal dose
  have listed : u.panel? p.number = some (p.fill nominal dose) := State.filled_panel? features body absent
  have tail : u.dose.queue.tail = rest.map fun h => h.fill p.number dose := by
    show (s.dose.queue.map _).tail = _
    rw [queue]
    rfl
  have isUnder : Segment.underdosed { g with required := some dose } = true ↔ g.dose < dose := by
    simp [Segment.underdosed, spliceFree, unrejected]
  by_cases under : g.dose < dose ∧ p.number ≠ s.dose.lastRejected
  · let w : State := { u with dose := { u.dose with queue := u.dose.queue.tail, lastRejected := p.number } }
    have judged : u.judge { g with required := some dose } = w.condemn p.number .underdosed := by
      rw [State.judge_under (isUnder.2 under.1) (by show g.panel ≠ _; rw [own]; exact under.2)]
      dsimp only
      rw [own]
    have condemned : w.condemn p.number .underdosed = if p.cause = none then w.caused p.number .underdosed else w :=
      State.condemn_listed (s := w) (p := p.fill nominal dose) listed
    refine ⟨_, judged, by simpa [w] using tail, ?_, by simp [w, u, State.filled, State.fillPending], fun good => ?_, fun _ _ => ?_⟩
    · rw [condemned]
      split <;> rfl
    · obtain within | same := good
      · exact absurd under.1 (Nat.not_lt.2 within)
      · exact absurd same under.2
    · refine ⟨by simp [w], ?_⟩
      rw [condemned]
      split
      · rw [State.caused_panel?_self (s := w) listed]
        rfl
      · next caused =>
        obtain ⟨c, some_⟩ := Option.ne_none_iff_exists'.1 caused
        rw [show w.panel? p.number = _ from listed, some_]
        exact congrArg some some_
  · have judged : u.judge { g with required := some dose } = u.segmentGone :=
      State.judge_good (by rw [isUnder]; show ¬ (_ ∧ g.panel ≠ _); rw [own]; exact under)
    exact ⟨_, judged, tail, rfl, rfl, fun _ => ⟨rfl, congrArg (Option.map fun q => q.cause) listed⟩,
      fun less other => absurd ⟨less, other⟩ under⟩

end

end Sys2Proof.Machine
end

section
/-! SUPPORT. The exit and the judgement that one lookup releases, in either order (R178). -/

namespace Sys2Proof.Machine

section
variable {s : State} {v : Service} {nominal dose len : Nat} {f : Feature} {p : Panel} {g : Segment} {rest : List Segment} {after : List Feature}

/-- The judgement goes first: the HANDOFF carries the cause. -/
theorem State.releaseBoth_judged {u : State} {h : Feature} {q : Panel} {y : Segment} {more : List Segment}
    (features : u.map.features = h :: after) (body : h.body = .panel q) (held : h.isHeld = true) (filled : h.hasPending = false)
    (behind : ∀ x ∈ after, x.isHeld = false) (clear : ∀ x ∈ u.map.features, x.overdue = false) (notLast : u.isLast = false)
    (room : u.handoffRoom = true) (queue : u.dose.queue = y :: more) (out : (u.cfg.lSpan : Int) ≤ travel u.tracker.position y.close)
    (ready : y.waits = false) (short : ∀ x ∈ more, travel u.tracker.position x.close < (u.cfg.lSpan : Int))
    (under : y.underdosed = true) (own : y.panel = q.number) (fresh : q.number ≠ u.dose.lastRejected) (unrejected : q.cause = none) :
    ∃ t, State.releaseBoth true u = t ∧ t.map.features = after ∧ t.line = u.line ∧
      t.dose = { u.dose with queue := more, lastRejected := q.number } ∧
      t.link.handoffFifo.map (fun x => x.payload) =
        u.link.handoffFifo.map (fun x => x.payload) ++
          [u.handoffOf { h with body := .panel { q with cause := some .underdosed } }] := by
  let w : State := { u with dose := { u.dose with queue := u.dose.queue.tail, lastRejected := q.number } }
  have listed : w.panel? q.number = some q := State.panel?_of_split (before := []) features (by simp [panelNumbers]) body
  have judged : u.judge y = w.caused q.number .underdosed := by
    rw [State.judge_under under (own ▸ fresh), own]
    exact (State.condemn_listed (s := w) listed).trans (if_pos unrejected)
  let h' : Feature := { h with body := .panel { q with cause := some .underdosed } }
  have list : (w.caused q.number .underdosed).map.features = h' :: after := by
    show modifyFirst _ _ u.map.features = _
    rw [features]
    refine (modifyPanel_of_split (before := []) (by simp [panelNumbers]) body _).trans ?_
    rw [Panel.withCause_eq, unrejected]
    rfl
  have stillFilled : h'.hasPending = false := by
    rw [Feature.hasPending, body] at filled
    exact filled
  have nonLate : (w.caused q.number .underdosed).anyOverdue = false := by
    refine any_eq_false_of ?_
    rw [list]
    rw [features] at clear
    exact fun x mem => (List.mem_cons.1 mem).elim (fun same => same ▸ clear h (List.mem_cons_self ..))
      (fun later => clear x (List.mem_cons_of_mem _ later))
  have exits : (w.caused q.number .underdosed).takeExits =
      State.pushHandoff { w.caused q.number .underdosed with
        map := { (w.caused q.number .underdosed).map with features := after } } (u.handoffOf h') :=
    (State.takeExits_one (before := []) list (List.forall_mem_nil _) held stillFilled behind).trans
      (State.exitHeld_sent (before := []) list (List.forall_mem_nil _) held notLast nonLate room)
  refine ⟨_, rfl, ?_⟩
  have released : State.releaseBoth true u = (w.caused q.number .underdosed).takeExits := by
    show (State.judgeAll u.dose.queue.length u).takeExits = _
    rw [State.judgeAll_one queue out ready short, judged]
  rw [released, exits]
  refine ⟨rfl, rfl, ?_, ?_⟩
  · exact congrArg (fun l => { u.dose with queue := l, lastRejected := q.number }) (congrArg List.tail queue)
  · rw [State.pushHandoff_fifo, List.map_append]
    rfl

/-- The exit goes first: the notice follows the HANDOFF. -/
theorem State.releaseBoth_noticed {u : State} {h : Feature} {q : Panel} {y : Segment} {more : List Segment}
    (features : u.map.features = h :: after) (absent : q.number ∉ panelNumbers after) (held : h.isHeld = true)
    (filled : h.hasPending = false)
    (behind : ∀ x ∈ after, x.isHeld = false) (clear : ∀ x ∈ u.map.features, x.overdue = false) (notLast : u.isLast = false)
    (few : u.link.handoffFifo.length < 7) (single : u.events.has .duplicateIndex = false)
    (queue : u.dose.queue = y :: more) (out : (u.cfg.lSpan : Int) ≤ travel u.tracker.position y.close)
    (ready : y.waits = false) (short : ∀ x ∈ more, travel u.tracker.position x.close < (u.cfg.lSpan : Int))
    (under : y.underdosed = true) (own : y.panel = q.number) (fresh : q.number ≠ u.dose.lastRejected) :
    ∃ t, State.releaseBoth false u = t ∧ t.map.features = after ∧ t.line = u.line ∧
      t.dose = { u.dose with queue := more, lastRejected := q.number } ∧
      t.link.handoffFifo.map (fun x => x.payload) =
        u.link.handoffFifo.map (fun x => x.payload) ++
          [u.handoffOf h, .handoffReject (BitVec.ofNat 32 q.number) 6] := by
  let x : State := State.pushHandoff { u with map := { u.map with features := after } } (u.handoffOf h)
  have exits : u.takeExits = x :=
    (State.takeExits_one (before := []) features (List.forall_mem_nil _) held filled behind).trans
      (State.exitHeld_sent (before := []) features (List.forall_mem_nil _) held notLast (any_eq_false_of clear)
        (State.handoffRoom_iff.2 ⟨by omega, single⟩))
  let w : State := { x with dose := { x.dose with queue := x.dose.queue.tail, lastRejected := q.number } }
  have gone : w.panel? q.number = none := by
    rw [← Option.not_isSome_iff_eq_none, State.panel?_isSome]
    exact absent
  have roomLeft : w.handoffRoom = true := by
    refine State.handoffRoom_iff.2 ⟨?_, single⟩
    show (u.link.handoffFifo ++ [_]).length < 8
    rw [List.length_append, List.length_singleton]
    omega
  have judged : x.judge y =
      { w.pushHandoff (.handoffReject (BitVec.ofNat 32 q.number) (BitVec.ofNat 8 RejectCause.underdosed.code)) with
        plan := w.planAfter q.number .underdosed } := by
    rw [State.judge_under under (own ▸ fresh), own]
    exact (State.condemn_gone (s := w) gone).trans (State.noticeOf_room (s := w) notLast roomLeft)
  refine ⟨_, rfl, ?_⟩
  have released : State.releaseBoth false u = x.judge y := by
    show State.judgeAll u.takeExits.dose.queue.length u.takeExits = _
    rw [exits]
    exact State.judgeAll_one (s := x) queue out ready short
  rw [released, judged]
  refine ⟨rfl, rfl, ?_, ?_⟩
  · exact congrArg (fun l => { u.dose with queue := l, lastRejected := q.number }) (congrArg List.tail queue)
  · show ((u.link.handoffFifo ++ [_]) ++ [_]).map _ = _
    rw [List.map_append, List.map_append, List.append_assoc]
    rfl

end

/-- An exit and a judgement that wait for one lookup: the HANDOFF carries UNDERDOSED, or the notice follows it. -/
theorem exec_webMapLookupComplete_both {s : State} {v : Service} {nominal dose len : Nat} {f : Feature} {p : Panel} {g : Segment}
    {rest : List Segment} {after : List Feature}
    (serving : s.store.serving = some v) (requester : v.lookup.requester = .webMap)
    (body : f.body = .panel p) (number : p.number = v.lookup.panel)
    (nominalIs : nominal = s.nominalFrom v.found) (doseIs : dose = s.doseFrom v.found)
    (away : s.cfg.blade = false → len = p.nominal.getD nominal ∧ p.outLen ≠ .pending)
    (blade : s.cfg.blade = true → p.outLen = .value len ∨ p.outLen = .asNominal ∧ len = p.nominal.getD nominal)
    (queue : s.dose.queue = g :: rest) (own : g.panel = p.number) (open_ : g.required = none) (spliceFree : g.splice = false)
    (rejectFree : g.rejected = false) (out : (s.cfg.lSpan : Int) ≤ travel s.tracker.position g.close)
    (short : ∀ h ∈ rest, travel s.tracker.position h.close < (s.cfg.lSpan : Int))
    (features : s.map.features = f :: after) (absent : p.number ∉ panelNumbers after) (reached : f.reached = true)
    (notLate : f.overdue = false) (behind : ∀ h ∈ after, h.reached = false ∧ h.overdue = false) (less : g.dose < dose)
    (fresh : p.number ≠ s.dose.lastRejected) (unrejected : p.cause = none) (notLast : s.isLast = false)
    (few : s.link.handoffFifo.length < 7) (single : s.events.has .duplicateIndex = false) :
    ∃ t, exec .webMapLookupComplete s = .next t ∧ t.map.features = after ∧ t.line = s.line ∧
      t.dose = { s.dose with queue := rest.map (fun h => h.fill p.number dose), lastRejected := p.number } ∧
      (t.link.handoffFifo.map (fun x => x.payload) =
          s.link.handoffFifo.map (fun x => x.payload) ++
            [.handoffPanel (BitVec.ofNat 32 p.number) (BitVec.ofNat 16 p.pattern) (BitVec.ofNat 32 len) 6] ∨
        t.link.handoffFifo.map (fun x => x.payload) =
          s.link.handoffFifo.map (fun x => x.payload) ++
            [.handoffPanel (BitVec.ofNat 32 p.number) (BitVec.ofNat 16 p.pattern) (BitVec.ofNat 32 len) 0,
             .handoffReject (BitVec.ofNat 32 p.number) 6]) := by
  let u : State := State.filled { s with store := s.store.endService } p.number v.found nominal dose
  let w : State := { u with free := s.free + 1 }
  let h : Feature := { f with body := .panel (p.fill nominal dose) }
  let y : Segment := { g with required := some dose }
  have ready : p.outLen ≠ .pending := by
    cases fitted : s.cfg.blade with
    | false => exact (away fitted).2
    | true =>
      rcases blade fitted with given | ⟨waits, -⟩
      · rw [given]; nofun
      · rw [waits]; nofun
  have list : u.map.features = h :: after :=
    State.filled_features (s := { s with store := s.store.endService }) (before := []) features body (by simp [panelNumbers])
  have segments : u.dose.queue = y :: rest.map fun x => x.fill p.number dose := by
    show s.dose.queue.map _ = _
    rw [queue, List.map_cons, Segment.fill_open own open_]
  have later : ∀ x ∈ rest.map fun x => x.fill p.number dose, travel u.tracker.position x.close < (u.cfg.lSpan : Int) := by
    intro x mem
    obtain ⟨k, inRest, rfl⟩ := List.mem_map.1 mem
    rw [Segment.fill_close]
    exact short k inRest
  have judgeable : y.waits = false := by simp [y, Segment.waits]
  have under : y.underdosed = true := by simp [y, Segment.underdosed, spliceFree, rejectFree, less]
  have isHeld : h.isHeld = true := by
    show (f.reached && !f.overdue) = true
    rw [reached, notLate]
    rfl
  have filled : h.hasPending = false := Panel.fill_hasPending ready
  have noneBehind : ∀ x ∈ after, x.isHeld = false := fun x mem => Feature.isHeld_fresh (behind x mem).1
  have clear : ∀ x ∈ u.map.features, x.overdue = false := by
    rw [list]
    exact fun x mem => (List.mem_cons.1 mem).elim (fun same => same ▸ notLate) fun inAfter => (behind x inAfter).2
  have stillSingle : u.events.has .duplicateIndex = false := (State.filled_duplicate p.number).trans single
  have both : u.bothWait = true := by
    have due : u.segmentDue = some y := by
      have outY : u.segmentOut y = true := State.segmentOut_iff.2 out
      rw [State.segmentDue_cons segments, if_pos (by rw [outY, judgeable]; rfl)]
    rw [State.bothWait, due, list, List.any_cons, isHeld]
    rfl
  have handoff (cause : Option RejectCause) := State.handoffOf_filled (u := w) (f := f) (p := p) (dose := dose) (len := len)
    (nominal := nominal) (fun fitted => (away fitted).1) blade cause
  have taken : exec .webMapLookupComplete s = .next (State.releaseBoth (Config.judgeFirst s.free) w) := by
    rw [exec_webMapLookupComplete serving requester, State.deliverToMap_eq, ← number]
    subst nominalIs doseIs
    exact congrArg _ (if_pos both)
  cases judgeFirst : Config.judgeFirst s.free with
  | true =>
    obtain ⟨t, released, map, line, doses, fifo⟩ :=
      State.releaseBoth_judged (u := w) (q := p.fill nominal dose) list rfl isHeld filled noneBehind clear notLast
        (State.handoffRoom_iff.2 ⟨Nat.lt_succ_of_lt few, stillSingle⟩) segments out judgeable later under own fresh unrejected
    exact ⟨t, taken.trans (by rw [judgeFirst, released]), map, line, doses, .inl (fifo.trans (by rw [handoff]; rfl))⟩
  | false =>
    obtain ⟨t, released, map, line, doses, fifo⟩ :=
      State.releaseBoth_noticed (u := w) (q := p.fill nominal dose) list absent isHeld filled noneBehind clear notLast few stillSingle
        segments out judgeable later under own fresh
    have sent : w.handoffOf h = .handoffPanel (BitVec.ofNat 32 p.number) (BitVec.ofNat 16 p.pattern) (BitVec.ofNat 32 len) 0 := by
      have plain := handoff none
      rwa [show ({ p.fill nominal dose with cause := none } : Panel) = p.fill nominal dose from
        unrejected ▸ (rfl : ({ p.fill nominal dose with cause := p.cause } : Panel) = p.fill nominal dose)] at plain
    exact ⟨t, taken.trans (by rw [judgeFirst, released]), map, line, doses, .inr (fifo.trans (by rw [sent]; rfl))⟩

/-- Settles O42: the filling of the records, then the exits and the judgements it releases. -/
theorem lookupsFillWhatWaited : Obligations.LookupsFillWhatWaited := by
  refine ⟨fun s v before after f p nominal dose serving requester features body number absent fresh short known missing => ?_,
    fun s v f p nominal dose len fill serving requester body number known missing away blade fills => ?_⟩
  · obtain ⟨nominalIs, doseIs⟩ := State.nominalFrom_of known missing
    refine ⟨_, exec_webMapLookupComplete_fills serving requester features body (number ▸ rfl) (number ▸ absent) fresh short nominalIs doseIs,
      ?_, rfl, fun r ref own => ?_, s.store.endService_wentOn, ?_⟩
    · rw [State.filled_features (s := { s with store := s.store.endService }) features body (number ▸ absent), Panel.fill_eq]
    · show s.tracker.ref.map (fun r => r.settle p.number nominal) = _
      rw [ref, Option.map_some, StretchRef.settle, if_pos own]
    · rfl
  · obtain ⟨nominalIs, doseIs⟩ := State.nominalFrom_of known missing
    obtain rfl : fill = fun g => g.fill p.number dose := funext fills
    refine ⟨fun held after numbers features reached notLate waits bodies behind short =>
        exec_webMapLookupComplete_releases serving requester body number nominalIs doseIs away blade features reached notLate waits bodies
          behind short,
      fun g rest queue own open_ spliceFree rejectFree out short => ⟨fun before after features absent fresh => ?_,
        fun after features absent reached notLate behind less other unrejected notLast few single =>
          exec_webMapLookupComplete_both serving requester body number nominalIs doseIs away blade queue own open_ spliceFree rejectFree out
            short features absent reached notLate behind less other unrejected notLast few single⟩⟩
    have taken := exec_webMapLookupComplete_judges serving requester number nominalIs doseIs queue own open_ out short
      (State.filled_idle (s := { s with store := s.store.endService }) features body absent fresh)
    obtain ⟨t, judged, segments, link, line, good, under⟩ :=
      State.judge_filled (s := { s with store := s.store.endService }) (found := v.found) (nominal := nominal) (dose := dose)
        features body absent queue own spliceFree rejectFree
    exact ⟨t, taken.trans (congrArg _ judged), segments, link, line, good, under⟩

end Sys2Proof.Machine
end

section
/-! SUPPORT. Features that find no room at the exit, and the halts they raise (R37, R80, R152). -/

namespace Sys2Proof.Machine

/-! ### A halt-class event while the line is down -/

section
variable {s : State} {e : Event}

theorem State.latch_rests (halt : e.isHalt = true)
    (rests : s.line.state = .halting ∨ s.line.state = .held ∨ s.line.state = .starting) :
    (s.latch e).seq = s.seq ∧ (s.latch e).map = s.map ∧ (s.latch e).link.handoffFifo = s.link.handoffFifo ∧
      (s.latch e).line = s.line := by
  have line := State.latch_line_rests halt rests
  obtain ⟨seq, map, fifo, -⟩ := (State.latch_heldRule (s := s) (e := e)).2 (by
    rw [line]
    rcases rests with state | state | state
    · exact .inl (by rw [state]; exact LineState.noConfusion)
    · exact .inr (.inl state)
    · exact .inl (by rw [state]; exact LineState.noConfusion))
  exact ⟨seq, map, fifo, line⟩

/-- Where a handoff finds no room, a halt adds none either. -/
theorem State.latch_fifo (full : 8 ≤ s.link.handoffFifo.length ∨ s.events.has .duplicateIndex = true) :
    (s.latch e).link.handoffFifo = s.link.handoffFifo := by
  obtain ⟨enters, stays⟩ := State.latch_heldRule (s := s) (e := e)
  by_cases held : (s.latch e).line.state = .held ∧ s.line.state ≠ .held ∧ (s.seq.state = .leadIn ∨ s.seq.state = .folding)
  · obtain ⟨-, -, -, -, alone, condemned⟩ := enters held
    cases current : s.seq.current with
    | none => exact (alone current).2.1
    | some d =>
      obtain ⟨-, listed, gone⟩ := condemned d current
      cases found : s.panel? d.panel with
      | some p => exact (listed p found).2.2
      | none => exact ((gone found).2.2.2.1 (.inr (full.imp_right (State.latch_keeps s e)))).1
  · exact (stays (by tauto)).2.2.1

/-- After a halt-class event the line is down. -/
theorem State.latch_down (halt : e.isHalt = true) :
    (s.latch e).line.state = .halting ∨ (s.latch e).line.state = .held ∨ (s.latch e).line.state = .starting := by
  by_cases moves : s.line.state = .run ∨ s.line.state = .stopping ∨ s.line.state = .standby
  · rw [State.latch_line_moves halt moves]
    dsimp only
    split
    · exact .inl rfl
    · exact .inr (.inl rfl)
  · have rests : s.line.state = .halting ∨ s.line.state = .held ∨ s.line.state = .starting := by
      cases state : s.line.state <;> simp_all
    rwa [State.latch_line_rests halt rests]

/-! ### What an exit is read off is kept by a latched event -/

/-- The place and the marks of a feature, and whether a field of it is pending. -/
def Feature.stand (f : Feature) : (Pos × Bool × Bool) × Bool := (f.marks, f.hasPending)

theorem countP_held_of_stands {fs gs : List Feature} (same : fs.map Feature.stand = gs.map Feature.stand) :
    fs.countP Feature.isHeld = gs.countP Feature.isHeld := by
  have read (l : List Feature) : l.countP Feature.isHeld = (l.map Feature.stand).countP fun x => x.1.2.1 && !x.1.2.2 := by
    rw [List.countP_map]
    rfl
  rw [read, read, same]

theorem State.condemn_stands (n : Nat) (c : RejectCause) :
    (s.condemn n c).map.features.map Feature.stand = s.map.features.map Feature.stand := by
  cases listed : s.panel? n with
  | none => rw [State.condemn_gone listed, State.noticeOf_frame]
  | some p =>
    rw [State.condemn_listed listed]
    split
    · refine modifyFirst_map _ _ Feature.stand (fun f is => ?_) s.map.features
      obtain ⟨q, body, -⟩ := Feature.panel?_of_isPanel is
      rw [Feature.mapPanel_of_body body, Panel.withCause_eq]
      simp [Feature.stand, Feature.marks, Feature.hasPending, body]
    · rfl

theorem State.heldAbort_stands : s.heldAbort.map.features.map Feature.stand = s.map.features.map Feature.stand := by
  by_cases playing : s.seq.state = .leadIn ∨ s.seq.state = .folding
  · rw [State.heldAbort_halted playing]
    cases current : s.seq.current with
    | none => simp only [State.abandonPanel, current]
    | some d =>
      simp only [State.abandonPanel, current]
      exact State.condemn_stands d.panel .halted
  · rw [State.heldAbort_idle playing]

theorem State.latch_stands : (s.latch e).map.features.map Feature.stand = s.map.features.map Feature.stand := by
  by_cases halt : e.isHalt = true
  · have same : (s.latch e).map = ((s.flag e).haltLine s.ownIndex).map := by simp [State.latch_halt halt]
    rw [same]
    by_cases moves : s.line.state = .run ∨ s.line.state = .stopping ∨ s.line.state = .standby
    · rw [State.haltLine_moves (s := s.flag e) moves]
      have kept : ((s.flag e).halted s.ownIndex).map = s.map := by rw [State.halted_frame]; rfl
      split
      · rw [kept]
      · rw [State.heldAbort_stands, kept]
    · rw [State.haltLine_rests (s := s.flag e) (by cases state : s.line.state <;> simp_all [State.flag])]
      rfl
  · rw [State.latch_report (by simpa using halt)]
    rfl

end

/-! ### Every feature that waits becomes OVERDUE -/

/-- A feature that waits becomes OVERDUE; any other stays. -/
def Feature.late (f : Feature) : Feature := if f.isHeld then { f with overdue := true } else f

/-- The marks that `Feature.late` leaves. -/
def lateMarks (m : Pos × Bool × Bool) : Pos × Bool × Bool := (m.1, m.2.1, m.2.1 || m.2.2)

theorem Feature.late_marks (f : Feature) : f.late.marks = lateMarks f.marks := by
  obtain ⟨body, entry, overdue, reached⟩ := f
  cases overdue <;> cases reached <;> rfl

theorem map_late_marks (fs : List Feature) : (fs.map Feature.late).map Feature.marks = (fs.map Feature.marks).map lateMarks := by
  rw [List.map_map, List.map_map]
  exact List.map_congr_left fun f _ => f.late_marks

theorem Feature.late_isPanel (f : Feature) (n : Nat) : f.late.isPanel n = f.isPanel n := by
  unfold Feature.late
  split <;> rfl

theorem Feature.late_panel? (f : Feature) : f.late.panel? = f.panel? := by
  unfold Feature.late
  split <;> rfl

theorem Feature.late_of_not {f : Feature} (other : f.isHeld = false) : f.late = f := if_neg (by rw [other]; exact Bool.noConfusion)

theorem map_late_of_not {fs : List Feature} (none : ∀ f ∈ fs, f.isHeld = false) : fs.map Feature.late = fs :=
  (List.map_congr_left fun f mem => Feature.late_of_not (none f mem)).trans (List.map_id fs)

section
variable {s : State}

theorem State.panel?_late {u : State} (features : u.map.features = s.map.features.map Feature.late) (n : Nat) :
    u.panel? n = s.panel? n := by
  have same : (fun f : Feature => f.isPanel n) ∘ Feature.late = fun f => f.isPanel n := funext fun f => f.late_isPanel n
  rw [State.panel?, State.panel?, features, List.find?_map, same]
  cases s.map.features.find? fun f => f.isPanel n with
  | none => rfl
  | some f => exact f.late_panel?

/-- What a backlog leaves: every feature that waited is OVERDUE, and nothing moves. -/
structure State.backlogged (s t : State) : Prop where
  map : t.map = { s.map with features := s.map.features.map Feature.late }
  seq : t.seq = s.seq
  line : t.line = s.line
  fifo : t.link.handoffFifo = s.link.handoffFifo
  events : ∀ a, s.events.has a = true → t.events.has a = true

theorem State.backlogged.of_idle (none : ∀ g ∈ s.map.features, g.isHeld = false) : s.backlogged s where
  map := by rw [map_late_of_not none]
  seq := rfl
  line := rfl
  fifo := rfl
  events _ := id

/-- With the line down and a feature OVERDUE, the features that wait at the exit become OVERDUE, and nothing moves. -/
theorem State.takeHeld_blocked {n : Nat} (rests : s.line.state = .halting ∨ s.line.state = .held ∨ s.line.state = .starting)
    (notLast : s.isLast = false) (blocked : s.anyOverdue = true)
    (filled : ∀ g ∈ s.map.features, g.isHeld = true → g.hasPending = false) (enough : s.map.features.countP Feature.isHeld ≤ n) :
    s.backlogged (State.takeHeld n s) := by
  induction n generalizing s with
  | zero =>
    have none := List.countP_eq_zero.1 (Nat.le_zero.1 enough)
    exact .of_idle fun g mem => by simpa using none g mem
  | succ n ih =>
    cases found : s.map.features.find? Feature.isHeld with
    | none =>
      have none : ∀ g ∈ s.map.features, g.isHeld = false := fun g mem => by simpa using List.find?_eq_none.1 found g mem
      rw [State.takeHeld_none none]
      exact .of_idle none
    | some f =>
      obtain ⟨held, before, after, features, skipped⟩ := List.find?_eq_some_iff_append.1 found
      have skipped : ∀ g ∈ before, g.isHeld = false := fun g mem => by simpa using skipped g mem
      let u : State := s.backedUp before after f
      have exit : s.exitHeld f = u.latch .handoffBacklog := State.exitHeld_overdue features skipped held notLast (.inl blocked)
      obtain ⟨seq, map, fifo, line⟩ := State.latch_rests (s := u) (e := .handoffBacklog) rfl rests
      have list : (u.latch .handoffBacklog).map.features = before ++ { f with overdue := true } :: after := by rw [map]; rfl
      have late : Feature.isHeld { f with overdue := true } = false := Feature.isHeld_late rfl
      have fewer : (u.latch .handoffBacklog).map.features.countP Feature.isHeld ≤ n := by
        rw [features, List.countP_append, List.countP_cons_of_pos held] at enough
        rw [list, List.countP_append, List.countP_cons_of_neg (by rw [late]; exact Bool.noConfusion)]
        omega
      have stillFilled : ∀ g ∈ (u.latch .handoffBacklog).map.features, g.isHeld = true → g.hasPending = false := by
        rw [list]
        intro g mem isHeld
        rcases List.mem_append.1 mem with inBefore | rest
        · exact filled g (features ▸ List.mem_append_left _ inBefore) isHeld
        · rcases List.mem_cons.1 rest with rfl | inAfter
          · exact nomatch late.symm.trans isHeld
          · exact filled g (features ▸ List.mem_append_right _ (List.mem_cons_of_mem _ inAfter)) isHeld
      have boot : (u.latch .handoffBacklog).boot = s.boot := by simp [u, State.backedUp]
      have rest := ih (s := u.latch .handoffBacklog) (by rw [line]; exact rests)
        ((State.isLast_congr boot (by rw [line]; rfl)).trans notLast)
        (List.any_eq_true.2 ⟨_, list ▸ List.mem_append_right _ (List.mem_cons_self ..), rfl⟩) stillFilled fewer
      have same : (before ++ { f with overdue := true } :: after).map Feature.late = s.map.features.map Feature.late := by
        rw [features, List.map_append, List.map_append, List.map_cons, List.map_cons, Feature.late_of_not late, Feature.late, if_pos held]
      rw [State.takeHeld_succ features skipped held (filled f (features ▸ List.mem_append_right _ (List.mem_cons_self ..)) held), exit]
      exact
        { map := by rw [rest.map, list, same, map]; rfl
          seq := rest.seq.trans seq
          line := rest.line.trans line
          fifo := rest.fifo.trans fifo
          events := fun a had => rest.events a (State.latch_keeps u _ had) }

/-- The first feature that waits finds no room: it latches HANDOFF_BACKLOG, and those behind it follow. -/
theorem State.takeExits_blocked {before after : List Feature} {f : Feature} (features : s.map.features = before ++ f :: after)
    (skipped : ∀ g ∈ before, g.isHeld = false) (held : f.isHeld = true) (filled : ∀ g ∈ s.map.features, g.isHeld = true → g.hasPending = false)
    (notLast : s.isLast = false) (blocked : s.anyOverdue = true ∨ s.handoffRoom = false) :
    ((s.backedUp before after f).latch .handoffBacklog).backlogged s.takeExits := by
  let u : State := s.backedUp before after f
  have stands := State.latch_stands (s := u) (e := .handoffBacklog)
  have standsOf {g : Feature} (mem : g ∈ (u.latch .handoffBacklog).map.features) :
      ∃ h ∈ before ++ { f with overdue := true } :: after, h.marks = g.marks ∧ h.hasPending = g.hasPending := by
    obtain ⟨h, inList, same⟩ := List.mem_map.1 (stands ▸ List.mem_map_of_mem (f := Feature.stand) mem)
    exact ⟨h, inList, congrArg Prod.fst same, congrArg Prod.snd same⟩
  have stillFilled : ∀ g ∈ (u.latch .handoffBacklog).map.features, g.isHeld = true → g.hasPending = false := by
    intro g mem isHeld
    obtain ⟨h, inList, marks, pending⟩ := standsOf mem
    obtain ⟨-, reached, late⟩ : h.entry = g.entry ∧ h.reached = g.reached ∧ h.overdue = g.overdue := by simpa [Feature.marks] using marks
    have hHeld : h.isHeld = true := by rw [Feature.isHeld, reached, late]; exact isHeld
    rw [← pending]
    rcases List.mem_append.1 inList with inBefore | rest
    · exact filled h (features ▸ List.mem_append_left _ inBefore) hHeld
    · rcases List.mem_cons.1 rest with rfl | inAfter
      · exact nomatch (Feature.isHeld_late (f := { f with overdue := true }) rfl).symm.trans hHeld
      · exact filled h (features ▸ List.mem_append_right _ (List.mem_cons_of_mem _ inAfter)) hHeld
  have anyLate : (u.latch .handoffBacklog).anyOverdue = true := by
    obtain ⟨h, mem, same⟩ := List.mem_map.1
      (stands.symm ▸ List.mem_map_of_mem (f := Feature.stand) (List.mem_append_right before (List.mem_cons_self (a := { f with overdue := true }) (l := after))))
    exact List.any_eq_true.2 ⟨h, mem, congrArg (fun x => x.1.2.2) same⟩
  have boot : (u.latch .handoffBacklog).boot = s.boot := by simp [u, State.backedUp]
  have peers : (u.latch .handoffBacklog).line.peers = s.line.peers := by simp [u, State.backedUp]
  have enough : (u.latch .handoffBacklog).map.features.countP Feature.isHeld ≤ before.length + after.length := by
    have late : Feature.isHeld { f with overdue := true } = false := Feature.isHeld_late rfl
    have behind := List.countP_le_length (p := Feature.isHeld) (l := after)
    have before' := List.countP_le_length (p := Feature.isHeld) (l := before)
    rw [countP_held_of_stands stands]
    show (before ++ { f with overdue := true } :: after).countP Feature.isHeld ≤ _
    rw [List.countP_append, List.countP_cons_of_neg (by rw [late]; exact Bool.noConfusion)]
    exact Nat.add_le_add before' behind
  rw [State.takeExits_eq features skipped held (filled f (features ▸ List.mem_append_right _ (List.mem_cons_self ..)) held),
    State.exitHeld_overdue features skipped held notLast blocked]
  exact State.takeHeld_blocked (State.latch_down rfl) ((State.isLast_congr boot peers).trans notLast) anyLate stillFilled enough

end

end Sys2Proof.Machine
end

section
/-! SUPPORT. A Sequencer lookup hands its copy over (R77, R134 to R136, R139). -/

namespace Sys2Proof.Machine

/-! ### The records of the list -/

/-- A change of one PANEL's record that keeps its number is seen in that record alone. -/
theorem panel_find_mapPanel {g : Panel → Panel} (number : ∀ p, (g p).number = p.number) (n m : Nat) (l : List Feature) :
    ((modifyFirst (fun f => f.isPanel n) (fun f => f.mapPanel g) l).find? fun f => f.isPanel m).bind Feature.panel? =
      ((l.find? fun f => f.isPanel m).bind Feature.panel?).map fun q => if m = n then g q else q := by
  induction l with
  | nil => rfl
  | cons x xs ih =>
    obtain ⟨b, e, o, r⟩ := x
    cases b with
    | splice k a => simpa [modifyFirst, Feature.isPanel] using ih
    | panel p =>
      by_cases isN : p.number = n
      · by_cases isM : p.number = m
        · simp [modifyFirst, Feature.isPanel, Feature.mapPanel, Feature.panel?, number, ← isN, ← isM]
        · have other : m ≠ n := fun same => isM (isN.trans same.symm)
          simp [modifyFirst, Feature.isPanel, Feature.mapPanel, number, isN, other, other.symm]
      · by_cases isM : p.number = m
        · have other : m ≠ n := fun same => isN (isM.trans same)
          simp [modifyFirst, Feature.isPanel, Feature.panel?, isM, other]
        · simpa [modifyFirst, Feature.isPanel, isN, isM] using ih

/-- What the next panel is read off. -/
def Feature.nextKey (f : Feature) : Option (Nat × Nat × Option Nat) × Pos × Bool :=
  (f.panel?.map fun p => (p.number, p.pattern, p.nominal), f.entry, f.reached)

/-- The next panel's number, pattern id, nominal length and entry position. -/
def State.nextKey (s : State) : Option (Nat × Nat × Option Nat × Pos) :=
  s.nextPanel.map fun x => (x.1.number, x.1.pattern, x.1.nominal, x.2.entry)

section
variable {s u : State}

theorem State.nextKey_congr (same : u.map.features.map Feature.nextKey = s.map.features.map Feature.nextKey) : u.nextKey = s.nextKey := by
  have read (w : State) : w.nextKey =
      ((w.map.features.map Feature.nextKey).find? fun k => k.1.isSome && !k.2.2).bind fun k => k.1.map fun x => (x.1, x.2.1, x.2.2, k.2.1) := by
    have test : (fun k : Option (Nat × Nat × Option Nat) × Pos × Bool => k.1.isSome && !k.2.2) ∘ Feature.nextKey =
        fun f => f.panel?.isSome && !f.reached := by
      funext f
      simp [Feature.nextKey]
    rw [List.find?_map, test, State.nextKey, State.nextPanel]
    cases w.map.features.find? fun f => f.panel?.isSome && !f.reached with
    | none => rfl
    | some f => cases panel : f.panel? <;> simp [Feature.nextKey, panel]
  rw [read u, read s, same]

theorem State.nextKey_number : s.nextKey.map Prod.fst = s.nextPanelNumber := by
  rw [← State.nextPanel_number, State.nextKey, Option.map_map]
  rfl

/-- The copy goes to the next panel. -/
theorem State.deliverNext_own {n id : Nat} {nominal : Option Nat} {entry : Pos} (next : s.nextKey = some (n, id, nominal, entry))
    (found : Option Pattern) :
    s.deliverNext n found = { s with seq := { s.seq with next := some ((Context.outstanding n id entry nominal).deliver found) } } := by
  obtain ⟨⟨p, f⟩, panel, same⟩ := Option.map_eq_some_iff.1 next
  simp only [Prod.mk.injEq] at same
  obtain ⟨rfl, rfl, rfl, rfl⟩ := same
  rw [State.deliverNext, panel]
  exact if_pos rfl

/-- A copy for any other panel is dropped. -/
theorem State.deliverNext_other {n : Nat} (other : s.nextPanelNumber ≠ some n) (found : Option Pattern) : s.deliverNext n found = s := by
  rw [← State.nextPanel_number] at other
  unfold State.deliverNext
  cases panel : s.nextPanel with
  | none => rfl
  | some x => exact if_neg fun same => other (by rw [panel, Option.map_some, same])

theorem State.deliverNext_frame (n : Nat) (found : Option Pattern) :
    s.deliverNext n found = { s with seq := { s.seq with next := (s.deliverNext n found).seq.next } } := by
  unfold State.deliverNext
  split
  · split <;> rfl
  · rfl

/-! ### The output length (R77, R134) -/

theorem Panel.fillOutput_eq (p : Panel) (found : Option Pattern) :
    p.fillOutput found =
      { p with
        outLen :=
          if p.outLen = .pending then
            (match found with
            | some q => .value q.outputLength
            | none =>
              match p.nominal with
              | some l => .value l
              | none => .asNominal)
          else p.outLen } := by
  unfold Panel.fillOutput
  split <;> rfl

/-- The state with the output length handed to the panel's record, where the lookup is an insertion's. -/
theorem State.fillOutput_copy {n : Nat} {found : Option Pattern} {r : Requester} (copy : r ≠ .insertion) : s.fillOutput r n found = s := by
  cases r with
  | insertion => exact absurd rfl copy
  | lateCopy => rfl
  | webMap => rfl

theorem State.fillOutput_panel? (n m : Nat) (found : Option Pattern) :
    (s.fillOutput .insertion n found).panel? m = (s.panel? m).map fun q => if m = n then q.fillOutput found else q :=
  panel_find_mapPanel (fun p => by rw [Panel.fillOutput_eq]) n m s.map.features

theorem State.fillOutput_marks (r : Requester) (n : Nat) (found : Option Pattern) :
    (s.fillOutput r n found).map.features.map Feature.marks = s.map.features.map Feature.marks := by
  by_cases insertion : r = .insertion
  · subst insertion
    refine modifyFirst_map _ _ Feature.marks (fun f is => ?_) s.map.features
    obtain ⟨q, body, -⟩ := Feature.panel?_of_isPanel is
    rw [Feature.mapPanel_of_body body]
    rfl
  · rw [State.fillOutput_copy insertion]

theorem State.fillOutput_nextKey (r : Requester) (n : Nat) (found : Option Pattern) : (s.fillOutput r n found).nextKey = s.nextKey := by
  by_cases insertion : r = .insertion
  · subst insertion
    refine State.nextKey_congr (modifyFirst_map _ _ Feature.nextKey (fun f is => ?_) s.map.features)
    obtain ⟨q, body, -⟩ := Feature.panel?_of_isPanel is
    rw [Feature.mapPanel_of_body body, Panel.fillOutput_eq]
    simp [Feature.nextKey, Feature.panel?, body]
  · rw [State.fillOutput_copy insertion]

theorem State.fillOutput_frame (r : Requester) (n : Nat) (found : Option Pattern) :
    s.fillOutput r n found = { s with map := { s.map with features := (s.fillOutput r n found).map.features } } := by
  cases r <;> rfl

/-! ### The copy reaches its context -/

/-- The state before the exits that waited for the copy are taken. -/
def State.copied (s : State) (r : Requester) (n : Nat) (found : Option Pattern) : State :=
  let t : State :=
    { s.fillOutput r n found with events := if found = none then s.events.set .patternMissing else s.events }
  match t.awaitsCopy n with
  | some c => t.deliverCurrent c found
  | none => t.deliverNext n found

theorem State.deliverCopy_eq (r : Requester) (n : Nat) (found : Option Pattern) :
    s.deliverCopy r n found = (s.copied r n found).takeExits := by
  cases found <;> cases r <;> rfl

/-- A copy served for the Sequencer is delivered while the port goes on. -/
theorem exec_sequencerLookupComplete {v : Service} (serving : s.store.serving = some v) (requester : v.lookup.requester ≠ .webMap) :
    exec .sequencerLookupComplete s =
      .next (State.copied { s with store := s.store.endService } v.lookup.requester v.lookup.panel v.found).takeExits := by
  show execSequencerLookupComplete s = _
  rw [execSequencerLookupComplete, serving]
  exact congrArg _ ((if_neg requester).trans (State.deliverCopy_eq _ _ _))

/-- The current context waits for this copy. -/
def State.awaits (s : State) (n : Nat) : Prop := ∃ c, s.seq.current = some c ∧ c.panel = n ∧ c.delivered = false

variable {n : Nat} {found : Option Pattern} {r : Requester} {c : Context}

theorem State.awaitsCopy_some (current : s.seq.current = some c) (own : c.panel = n) (open_ : c.delivered = false) :
    s.awaitsCopy n = some c := by
  rw [State.awaitsCopy, current]
  exact if_pos ⟨own, open_⟩

theorem State.awaitsCopy_none (other : ∀ c, s.seq.current = some c → c.panel ≠ n ∨ c.delivered = true) : s.awaitsCopy n = none := by
  unfold State.awaitsCopy
  split
  · next c current =>
    refine if_neg fun ⟨own, open_⟩ => ?_
    rcases other c current with away | delivered
    · exact away own
    · exact nomatch open_.symm.trans delivered
  · rfl

/-- The copy for the current context. -/
theorem State.copied_current (current : s.seq.current = some c) (own : c.panel = n) (open_ : c.delivered = false) :
    s.copied r n found =
      State.deliverCurrent { s.fillOutput r n found with events := if found = none then s.events.set .patternMissing else s.events } c
        found := by
  have waits : State.awaitsCopy
      { s.fillOutput r n found with events := if found = none then s.events.set .patternMissing else s.events } n = some c :=
    State.awaitsCopy_some (by rw [State.fillOutput_frame]; exact current) own open_
  rw [State.copied, waits]

theorem State.copied_next (other : ∀ c, s.seq.current = some c → c.panel ≠ n ∨ c.delivered = true) :
    s.copied r n found =
      State.deliverNext { s.fillOutput r n found with events := if found = none then s.events.set .patternMissing else s.events } n
        found := by
  have waits : State.awaitsCopy
      { s.fillOutput r n found with events := if found = none then s.events.set .patternMissing else s.events } n = none :=
    State.awaitsCopy_none (by rw [State.fillOutput_frame]; exact other)
  rw [State.copied, waits]

theorem State.deliverCurrent_frame (c : Context) (found : Option Pattern) :
    s.deliverCurrent c found =
      { s with
        seq :=
          { s.seq with
            current := some (c.deliver found)
            play := (s.deliverCurrent c found).seq.play
            state := (s.deliverCurrent c found).seq.state } } := by
  unfold State.deliverCurrent
  split <;> rfl

/-- The current context waits for this copy, or it does not. -/
theorem State.awaits_or (s : State) (n : Nat) :
    (∃ c, s.seq.current = some c ∧ c.panel = n ∧ c.delivered = false) ∨ ∀ c, s.seq.current = some c → c.panel ≠ n ∨ c.delivered = true := by
  by_cases waits : ∃ c, s.seq.current = some c ∧ c.panel = n ∧ c.delivered = false
  · exact .inl waits
  · refine .inr fun c current => or_iff_not_imp_left.2 fun own => ?_
    by_contra open_
    exact waits ⟨c, current, not_not.1 own, by simpa using open_⟩

/-- What a copy touches before the exits are taken. -/
theorem State.copied_frame :
    s.copied r n found =
      { s with
        map := { s.map with features := (s.fillOutput r n found).map.features }
        events := if found = none then s.events.set .patternMissing else s.events
        seq :=
          { s.seq with
            current := (s.copied r n found).seq.current
            next := (s.copied r n found).seq.next
            play := (s.copied r n found).seq.play
            state := (s.copied r n found).seq.state } } := by
  rcases s.awaits_or n with ⟨c, current, own, open_⟩ | other
  · rw [State.copied_current current own open_, State.deliverCurrent_frame, State.fillOutput_frame]
  · rw [State.copied_next other, State.deliverNext_frame, State.fillOutput_frame]

end

end Sys2Proof.Machine
end

section
/-! SUPPORT. What a copy leaves in its context, and the exit that waited for it (R77, R79, R80, R139, R152). -/

namespace Sys2Proof.Machine

section
variable {s t u : State} {v : Service} {n : Nat} {found : Option Pattern} {r : Requester} {c : Context}

/-- FOLDING while a strike is outstanding, else TAIL. -/
theorem folding_or_tail (k : Option Strike) :
    (match k with
      | some _ => SeqState.folding
      | none => SeqState.tail) = if k = none then .tail else .folding := by
  cases k <;> rfl

theorem State.startPlay_eq (s : State) (c : Context) :
    s.startPlay c =
      { s with
        seq :=
          { s.seq with
            play := some (Play.setUp (ahead c.entry s.cfg.bDist) c.pattern s.tracker.stretch)
            state :=
              if (Play.setUp (ahead c.entry s.cfg.bDist) c.pattern s.tracker.stretch).strike = none then .tail else .folding } } := by
  exact congrArg
    (fun st =>
      { s with
        seq := { s.seq with play := some (Play.setUp (ahead c.entry s.cfg.bDist) c.pattern s.tracker.stretch), state := st } })
    (folding_or_tail (Play.setUp (ahead c.entry s.cfg.bDist) c.pattern s.tracker.stretch).strike)

theorem State.deliverCurrent_leadIn (leadIn : s.seq.state = .leadIn) :
    (s.deliverCurrent c found).seq.play = some (Play.setUp (ahead c.entry s.cfg.bDist) found s.tracker.stretch) ∧
      (s.deliverCurrent c found).seq.state =
        if (Play.setUp (ahead c.entry s.cfg.bDist) found s.tracker.stretch).strike = none then .tail else .folding := by
  have plays : s.deliverCurrent c found =
      State.startPlay { s with seq := { s.seq with current := some (c.deliver found) } } (c.deliver found) := by
    unfold State.deliverCurrent
    rw [leadIn]
  have entry : (c.deliver found).entry = c.entry := by cases found <;> rfl
  have pattern : (c.deliver found).pattern = found := by cases found <;> rfl
  rw [plays, State.startPlay_eq, entry, pattern]
  exact ⟨rfl, rfl⟩

theorem State.deliverCurrent_other (other : s.seq.state ≠ .leadIn) :
    (s.deliverCurrent c found).seq.play = s.seq.play ∧ (s.deliverCurrent c found).seq.state = s.seq.state := by
  unfold State.deliverCurrent
  split
  case h_1 leadIn => exact absurd leadIn other
  all_goals exact ⟨rfl, rfl⟩

/-- The copy of the current context is taken, as R139 has it. -/
theorem State.copied_takesCopy (s : State) (v : Service) : s.takesCopy (s.copied v.lookup.requester v.lookup.panel v.found) v := by
  refine ⟨fun c current own open_ => ?_, fun other => ?_⟩
  · rw [State.copied_current current own open_]
    let w : State :=
      { s.fillOutput v.lookup.requester v.lookup.panel v.found with
        events := if v.found = none then s.events.set .patternMissing else s.events }
    have frame : s.fillOutput v.lookup.requester v.lookup.panel v.found = _ := State.fillOutput_frame _ _ _
    have seq : w.seq = s.seq := by simp only [w]; rw [frame]
    have cfg : w.cfg = s.cfg := by simp only [w]; rw [frame]
    have tracker : w.tracker = s.tracker := by simp only [w]; rw [frame]
    have taken : (w.deliverCurrent c v.found).seq.current = some (c.deliver v.found) := by rw [State.deliverCurrent_frame]
    have played (leadIn : s.seq.state = .leadIn) := State.deliverCurrent_leadIn (s := w) (c := c) (found := v.found) (by rw [seq]; exact leadIn)
    rw [cfg, tracker] at played
    refine ⟨fun q some_ => ⟨by rw [taken, some_]; rfl, fun leadIn play same => ?_⟩, fun missing => ⟨by rw [taken, missing]; rfl, fun leadIn => ?_⟩,
      fun elsewhere => ?_⟩
    · obtain ⟨starts, state⟩ := played leadIn
      exact ⟨starts.trans (by rw [some_, ← same]), state.trans (by rw [some_, ← same])⟩
    · obtain ⟨starts, state⟩ := played leadIn
      exact ⟨state.trans (by rw [missing]; rfl), _, starts, by rw [missing]; rfl⟩
    · have stays := State.deliverCurrent_other (s := w) (c := c) (found := v.found) (by rw [seq]; exact elsewhere)
      rwa [seq] at stays
  · rw [State.copied_next other, State.deliverNext_frame, State.fillOutput_frame]
    exact ⟨rfl, rfl, rfl⟩

theorem State.takesCopy.congr (h : s.takesCopy t v) (current : u.seq.current = t.seq.current) (play : u.seq.play = t.seq.play)
    (state : u.seq.state = t.seq.state) : s.takesCopy u v := by
  unfold State.takesCopy at h ⊢
  rw [current, play, state]
  exact h

/-- The record of the panel takes the output length, as R77 and R134 have it. -/
theorem State.copied_fillsOutput (s : State) (v : Service) : s.fillsOutput (s.copied v.lookup.requester v.lookup.panel v.found) v := by
  have map : (s.copied v.lookup.requester v.lookup.panel v.found).map =
      { s.map with features := (s.fillOutput v.lookup.requester v.lookup.panel v.found).map.features } := by
    rw [State.copied_frame]
  refine ⟨fun copy => ?_, fun insertion => ?_⟩
  · rw [map, State.fillOutput_copy (by rw [copy]; exact Requester.noConfusion)]
  · have panels (m : Nat) : (s.copied v.lookup.requester v.lookup.panel v.found).panel? m =
        (s.panel? m).map fun q => if m = v.lookup.panel then q.fillOutput v.found else q := by
      rw [State.panel?, map, insertion]
      exact State.fillOutput_panel? v.lookup.panel m v.found
    refine ⟨by rw [map], ?_, fun m other => ?_, fun p listed => ?_⟩
    · have marks := State.fillOutput_marks (s := s) v.lookup.requester v.lookup.panel v.found
      rw [State.listIs_iff, map]
      exact marks
    · have same : (fun q : Panel => if m = v.lookup.panel then q.fillOutput v.found else q) = id := funext fun q => if_neg other
      rw [panels, same, Option.map_id]
      rfl
    · rw [panels, listed, Option.map_some, if_pos rfl, Panel.fillOutput_eq]
      refine ⟨fun filled => by rw [if_neg filled], fun pending => ⟨fun q some_ => by rw [if_pos pending, some_], fun missing => ?_⟩⟩
      rw [if_pos pending, missing] <;> cases p.nominal <;> rfl

/-- The next context takes the copy, unless it is the current context's or another panel's. -/
theorem State.copied_own {id : Nat} {nominal : Option Nat} {entry : Pos}
    (other : ∀ c, s.seq.current = some c → c.panel ≠ n ∨ c.delivered = true) (next : s.nextKey = some (n, id, nominal, entry)) :
    (s.copied r n found).seq.next = some ((Context.outstanding n id entry nominal).deliver found) := by
  have key : State.nextKey
      { s.fillOutput r n found with events := if found = none then s.events.set .patternMissing else s.events } =
        some (n, id, nominal, entry) :=
    (State.fillOutput_nextKey r n found).trans next
  rw [State.copied_next other, State.deliverNext_own key]

theorem State.copied_dropped
    (dropped : s.nextPanelNumber ≠ some n ∨ ∃ c, s.seq.current = some c ∧ c.panel = n ∧ c.delivered = false) :
    (s.copied r n found).seq.next = s.seq.next := by
  rcases s.awaits_or n with ⟨c, current, own, open_⟩ | other
  · rw [State.copied_current current own open_, State.deliverCurrent_frame, State.fillOutput_frame]
  · have away : s.nextPanelNumber ≠ some n := by
      rcases dropped with away | ⟨c, current, own, open_⟩
      · exact away
      · rcases other c current with notOwn | delivered
        · exact absurd own notOwn
        · exact nomatch open_.symm.trans delivered
    have key : State.nextPanelNumber
        { s.fillOutput r n found with events := if found = none then s.events.set .patternMissing else s.events } ≠ some n := by
      rw [← State.nextKey_number] at away ⊢
      rw [show State.nextKey { s.fillOutput r n found with events := if found = none then s.events.set .patternMissing else s.events } =
        s.nextKey from State.fillOutput_nextKey r n found]
      exact away
    rw [State.copied_next other, State.deliverNext_other key, State.fillOutput_frame]

end

/-! ### What a lookup finds (R112) -/

theorem Store.lookup_none {st : Store} {id : Nat} (none : ∀ i : Fin 32, (st.record i).state = .valid → (st.record i).id ≠ some id) :
    st.lookup id = Option.none := by
  rw [Store.lookup, Store.validSlot_eq_none none]

theorem Store.lookup_some {st : Store} {id : Nat} {i : Fin 32} (valid : (st.record i).state = .valid) (own : (st.record i).id = some id)
    (lowest : ∀ j < i, (st.record j).state = .valid → (st.record j).id ≠ some id) :
    st.lookup id = (st.cell i).map fun r => r.pattern := by
  rw [Store.lookup, Store.validSlot_eq_some valid own lowest]

end Sys2Proof.Machine
end

section
/-! SUPPORT. The exit at the blade that waited for the output length (R77, R79, R80, R82, R139, R152). -/

namespace Sys2Proof.Machine

/-! ### A halt-class event, seen from the blade -/

section
variable {s : State} {e : Event}

theorem State.no_handoffRoom (full : 8 ≤ s.link.handoffFifo.length ∨ s.events.has .duplicateIndex = true) : s.handoffRoom = false := by
  refine Bool.eq_false_iff.2 fun room => ?_
  obtain ⟨few, single⟩ := State.handoffRoom_iff.1 room
  rcases full with full | duplicate
  · omega
  · exact nomatch duplicate.symm.trans single

/-- A halt-class event that does not enter HELD leaves the blade and the list as they are. -/
theorem State.latch_notHeld (halt : e.isHalt = true) (notHeld : ¬ s.haltIsHeld) : (s.latch e).seq = s.seq ∧ (s.latch e).map = s.map := by
  by_cases rests : s.line.state = .halting ∨ s.line.state = .held ∨ s.line.state = .starting
  · obtain ⟨seq, map, -⟩ := State.latch_rests halt rests
    exact ⟨seq, map⟩
  · have running : s.line.state = .run ∨ s.line.state = .stopping := by
      cases state : s.line.state <;> simp_all
    have moving : s.line.vCmd ≠ 0 := fun still => notHeld (.inr ⟨running, still⟩)
    obtain ⟨seq, map, -⟩ := (State.latch_heldRule (s := s) (e := e)).2
      (.inl (by rw [((latch_haltsTheLine s halt).1 running).1, if_neg moving]; exact LineState.noConfusion))
    exact ⟨seq, map⟩

theorem State.latch_held (halt : e.isHalt = true) (held : s.haltIsHeld) :
    (s.latch e).line.state = .held ∧ s.line.state ≠ .held := by
  rcases held with standby | ⟨running, still⟩
  · exact ⟨((latch_haltsTheLine s halt).2 standby).1, by rw [standby]; exact LineState.noConfusion⟩
  · refine ⟨by rw [((latch_haltsTheLine s halt).1 running).1, if_pos still], ?_⟩
    rcases running with state | state <;> (rw [state]; exact LineState.noConfusion)

end

section
variable {s : State} {v : Service} {f : Feature} {p : Panel} {held after : List Feature} {numbers : List (Nat × Bool)} {l len : Nat}

theorem Panel.fillOutput_value {found : Option Pattern} (pending : p.outLen = .pending) (nominal : p.nominal = some l)
    (known : ∀ q, found = some q → len = q.outputLength) (missing : found = none → len = l) :
    p.fillOutput found = { p with outLen := .value len } := by
  rw [Panel.fillOutput_eq, if_pos pending]
  cases found with
  | none => rw [missing rfl, nominal]
  | some q => rw [known q rfl]

/-- The list once the output length stands in the record at its head. -/
theorem State.copied_features {n : Nat} {found : Option Pattern} (features : s.map.features = f :: after) (body : f.body = .panel p)
    (number : p.number = n) :
    (s.copied .insertion n found).map.features = { f with body := .panel (p.fillOutput found) } :: after := by
  subst number
  rw [State.copied_frame]
  show modifyFirst _ _ s.map.features = _
  rw [features]
  exact modifyPanel_of_split (before := []) (by simp [panelNumbers]) body _

theorem State.copied_duplicate {r : Requester} {n : Nat} {found : Option Pattern} :
    (s.copied r n found).events.has .duplicateIndex = s.events.has .duplicateIndex := by
  rw [State.copied_frame]
  dsimp only
  split
  · exact EventLatch.has_set_other nofun
  · rfl

end

/-- What waits at the blade for an insertion's lookup: the panel at the head of the list, and the SPLICEs behind it. -/
structure State.awaitsExit (s : State) (v : Service) (f : Feature) (p : Panel) (held after : List Feature) (numbers : List (Nat × Bool))
    (l len : Nat) : Prop where
  serving : s.store.serving = some v
  blade : s.cfg.blade = true
  insertion : v.lookup.requester = .insertion
  features : s.map.features = f :: (held ++ after)
  body : f.body = .panel p
  number : p.number = v.lookup.panel
  reached : f.reached = true
  notLate : f.overdue = false
  waits : ∀ g ∈ held, g.reached = true ∧ g.overdue = false
  bodies : held.map (fun g => g.body) = numbers.map (fun x => .splice x.1 x.2)
  behind : ∀ g ∈ after, g.reached = false ∧ g.overdue = false
  pending : p.outLen = .pending
  nominal : p.nominal = some l
  dosed : p.dose ≠ .pending
  known : ∀ q, v.found = some q → len = q.outputLength
  missing : v.found = none → len = l

section
variable {s : State} {v : Service} {f : Feature} {p : Panel} {held after : List Feature} {numbers : List (Nat × Bool)} {l len : Nat}

/-- The copy delivered, with the exits still to be taken. -/
def State.afterCopy (s : State) (v : Service) : State :=
  State.copied { s with store := s.store.endService } v.lookup.requester v.lookup.panel v.found

/-- The panel with its output length. -/
def Feature.withOutput (f : Feature) (p : Panel) (len : Nat) : Feature := { f with body := .panel { p with outLen := .value len } }

variable (w : s.awaitsExit v f p held after numbers l len)
include w

theorem State.awaitsExit.taken : exec .sequencerLookupComplete s = .next (s.afterCopy v).takeExits :=
  exec_sequencerLookupComplete w.serving (by rw [w.insertion]; exact Requester.noConfusion)

theorem State.awaitsExit.list : (s.afterCopy v).map.features = (f.withOutput p len :: held) ++ after := by
  have list := State.copied_features (s := { s with store := s.store.endService }) (found := v.found) w.features w.body w.number
  rw [Panel.fillOutput_value w.pending w.nominal w.known w.missing, ← w.insertion] at list
  exact list

theorem State.awaitsExit.allHeld : ∀ g ∈ f.withOutput p len :: held, g.isHeld = true := fun g mem => (List.mem_cons.1 mem).elim
  (fun same => by rw [same]; show (f.reached && !f.overdue) = true; rw [w.reached, w.notLate]; rfl)
  (fun later => by rw [Feature.isHeld, (w.waits g later).1, (w.waits g later).2]; rfl)

theorem State.awaitsExit.allFilled : ∀ g ∈ f.withOutput p len :: held, g.hasPending = false := fun g mem => (List.mem_cons.1 mem).elim
  (fun same => by rw [same]; simp [Feature.hasPending, Feature.withOutput, w.nominal, w.dosed])
  (fun later => by
    obtain ⟨n, a, spliced⟩ := splice_of_bodies w.bodies g later
    exact Feature.hasPending_splice spliced)

theorem State.awaitsExit.noneBehind : ∀ g ∈ after, g.isHeld = false := fun g mem => Feature.isHeld_fresh (w.behind g mem).1

theorem State.awaitsExit.clear : ∀ g ∈ (s.afterCopy v).map.features, g.overdue = false := by
  rw [w.list]
  intro g mem
  rcases List.mem_append.1 mem with first | later
  · rcases List.mem_cons.1 first with rfl | inHeld
    · exact w.notLate
    · exact (w.waits g inHeld).2
  · exact (w.behind g later).2

omit w in
theorem State.afterCopy_frame (s : State) (v : Service) :
    s.afterCopy v =
      { s with
        map := { s.map with features := (s.afterCopy v).map.features }
        store := s.store.endService
        events := if v.found = none then s.events.set .patternMissing else s.events
        seq :=
          { s.seq with
            current := (s.afterCopy v).seq.current
            next := (s.afterCopy v).seq.next
            play := (s.afterCopy v).seq.play
            state := (s.afterCopy v).seq.state } } := by
  let o : State := { s with store := s.store.endService }
  have frame := State.copied_frame (s := o) (r := v.lookup.requester) (n := v.lookup.panel) (found := v.found)
  have features : (s.afterCopy v).map.features = (o.fillOutput v.lookup.requester v.lookup.panel v.found).map.features :=
    (congrArg (fun x : State => x.map.features) frame :)
  rw [features]
  exact frame

omit w in
theorem State.afterCopy_takesCopy (s : State) (v : Service) : s.takesCopy (s.afterCopy v) v :=
  State.copied_takesCopy { s with store := s.store.endService } v

omit w in
theorem State.afterCopy_isLast (s : State) (v : Service) : (s.afterCopy v).isLast = s.isLast :=
  State.isLast_congr (by rw [State.afterCopy_frame]) (by rw [State.afterCopy_frame])

/-- At the last station the panel leaves through the gate. -/
theorem State.awaitsExit.leaves (last : s.isLast = true) :
    ∃ t, exec .sequencerLookupComplete s = .next t ∧ t.map.features = after ∧ t.link = s.link ∧ s.takesCopy t v ∧
      t.map.gateOpen = if s.cfg.rejectGate then p.cause.isSome else s.map.gateOpen := by
  let u : State := s.afterCopy v
  have exits := State.takeExits_last w.list w.allHeld w.allFilled w.noneBehind ((s.afterCopy_isLast v).trans last)
  refine ⟨_, w.taken.trans (congrArg _ exits), rfl, ?_, (s.afterCopy_takesCopy v).congr rfl rfl rfl, ?_⟩
  · show u.link = s.link
    simp only [u]
    rw [State.afterCopy_frame]
  · show (f.withOutput p len :: held).foldl u.gateAfter u.map.gateOpen = _
    have gate : u.map.gateOpen = s.map.gateOpen := by simp only [u]; rw [State.afterCopy_frame]
    have cfg : u.cfg = s.cfg := by simp only [u]; rw [State.afterCopy_frame]
    rw [List.foldl_cons, State.gateAfter_splices u (splice_of_bodies w.bodies), State.gateAfter, cfg, gate]
    rfl

/-- With room the panel leaves as a HANDOFF, and the SPLICEs behind it. -/
theorem State.awaitsExit.handsOn (notLast : s.isLast = false) (room : s.link.handoffFifo.length + held.length < 8)
    (single : s.events.has .duplicateIndex = false) :
    ∃ t, exec .sequencerLookupComplete s = .next t ∧ t.map = { s.map with features := after } ∧ s.takesCopy t v ∧ t.line = s.line ∧
      t.link = { s.link with handoffFifo := t.link.handoffFifo, serial := s.link.serial + 1 + held.length } ∧
      t.link.handoffFifo.map (fun x => x.payload) =
        s.link.handoffFifo.map (fun x => x.payload) ++
          .handoffPanel (BitVec.ofNat 32 p.number) (BitVec.ofNat 16 p.pattern) (BitVec.ofNat 32 len)
              (BitVec.ofNat 8 ((p.cause.map RejectCause.code).getD 0)) ::
            numbers.map (fun x => .handoffSplice (BitVec.ofNat 32 x.1)) := by
  let u : State := s.afterCopy v
  have link : u.link = s.link := by simp only [u]; rw [State.afterCopy_frame]
  have line : u.line = s.line := by simp only [u]; rw [State.afterCopy_frame]
  have map : { u.map with features := after } = { s.map with features := after } := by simp only [u]; rw [State.afterCopy_frame]
  have blade : u.cfg.blade = true := by simp only [u]; rw [State.afterCopy_frame]; exact w.blade
  have exits := State.takeExits_sent w.list w.allHeld w.allFilled w.noneBehind ((s.afterCopy_isLast v).trans notLast) w.clear
    (by rw [show (s.afterCopy v).link = s.link from link, List.length_cons]; omega)
    ((State.copied_duplicate (s := { s with store := s.store.endService })).trans single)
  refine ⟨_, w.taken.trans (congrArg _ exits), map, (s.afterCopy_takesCopy v).congr rfl rfl rfl, line, ?_, ?_⟩
  · refine State.sentOn_link.trans ?_
    rw [show (s.afterCopy v).link = s.link from link, List.length_cons, Nat.add_comm held.length 1, ← Nat.add_assoc]
  · have own : u.handoffOf (f.withOutput p len) =
        .handoffPanel (BitVec.ofNat 32 p.number) (BitVec.ofNat 16 p.pattern) (BitVec.ofNat 32 len)
          (BitVec.ofNat 8 ((p.cause.map RejectCause.code).getD 0)) := by
      rw [State.handoffOf, Feature.withOutput]
      dsimp only
      rw [if_pos blade, causeCode_eq]
      rfl
    rw [State.sentOn_payloads, List.map_cons, State.handoffOf_splices u w.bodies, own, link]

/-- Without room the panel becomes OVERDUE, and the SPLICEs behind it. -/
theorem State.awaitsExit.backlog (notLast : s.isLast = false)
    (full : 8 ≤ s.link.handoffFifo.length ∨ s.events.has .duplicateIndex = true) :
    ∃ t, exec .sequencerLookupComplete s = .next t ∧ t.events.has .handoffBacklog = true ∧
      t.listIs ((f :: held).map (fun g => { g with overdue := true }) ++ after) ∧
      t.link.handoffFifo = s.link.handoffFifo ∧
      (s.line.state = .run ∨ s.line.state = .stopping → t.line.state = if s.line.vCmd = 0 then .held else .halting) ∧
      (¬ s.haltIsHeld → s.takesCopy t v ∧ t.panel? p.number = some { p with outLen := .value len }) ∧
      (s.haltIsHeld → ∀ c, s.seq.current = some c → c.panel = p.number → c.delivered = false → s.seq.state = .leadIn →
        ((Play.setUp (ahead c.entry s.cfg.bDist) v.found s.tracker.stretch).strike ≠ none →
          t.seq.state = .runout ∧ t.seq.play = none ∧
          t.panel? p.number = some { p with outLen := .value len, cause := some (p.cause.getD .halted) }) ∧
        ((Play.setUp (ahead c.entry s.cfg.bDist) v.found s.tracker.stretch).strike = none →
          t.seq.state = .tail ∧ t.panel? p.number = some { p with outLen := .value len })) := by
  let u : State := s.afterCopy v
  let y : State := u.backedUp [] (held ++ after) (f.withOutput p len)
  have link : u.link = s.link := by simp only [u]; rw [State.afterCopy_frame]
  have line : u.line = s.line := by simp only [u]; rw [State.afterCopy_frame]
  have duplicate : u.events.has .duplicateIndex = s.events.has .duplicateIndex :=
    State.copied_duplicate (s := { s with store := s.store.endService })
  have noRoom : 8 ≤ u.link.handoffFifo.length ∨ u.events.has .duplicateIndex = true := by rw [link, duplicate]; exact full
  have heldFilled : ∀ g ∈ u.map.features, g.isHeld = true → g.hasPending = false := by
    rw [w.list]
    intro g mem isHeld
    rcases List.mem_append.1 mem with first | later
    · exact w.allFilled g first
    · exact nomatch (w.noneBehind g later).symm.trans isHeld
  have left : (y.latch .handoffBacklog).backlogged u.takeExits :=
    State.takeExits_blocked (before := []) w.list (List.forall_mem_nil _) (w.allHeld _ (List.mem_cons_self ..)) heldFilled
      ((s.afterCopy_isLast v).trans notLast) (.inr (State.no_handoffRoom noRoom))
  have listed : y.panel? p.number = some { p with outLen := .value len } :=
    State.panel?_of_split (s := y) (before := []) (p := { p with outLen := .value len }) rfl (by simp [panelNumbers]) rfl
  refine ⟨u.takeExits, w.taken, left.events _ State.latch_has, ?_, ?_, fun running => ?_, fun notHeld => ?_,
    fun isHeld c current own open_ leadIn => ?_⟩
  · have marks := State.latch_listIs y .handoffBacklog
    have own : lateMarks (f.entry, f.reached, true) = (f.entry, f.reached, true) := by rw [w.reached]; rfl
    have heldLate : (held.map Feature.marks).map lateMarks = (held.map fun g => { g with overdue := true }).map Feature.marks := by
      rw [List.map_map, List.map_map]
      refine List.map_congr_left fun g mem => ?_
      show (g.entry, g.reached, g.reached || g.overdue) = (g.entry, g.reached, true)
      rw [(w.waits g mem).1]
      rfl
    have afterStays : (after.map Feature.marks).map lateMarks = after.map Feature.marks := by
      rw [List.map_map]
      refine List.map_congr_left fun g mem => ?_
      show (g.entry, g.reached, g.reached || g.overdue) = (g.entry, g.reached, g.overdue)
      rw [(w.behind g mem).1]
      rfl
    rw [State.listIs_iff, left.map, map_late_marks, State.listIs_iff.1 marks]
    show lateMarks (f.entry, f.reached, true) :: ((held ++ after).map Feature.marks).map lateMarks = _
    rw [own, List.map_append, List.map_append, heldLate, afterStays, List.map_append]
    rfl
  · rw [left.fifo, State.latch_fifo (s := y) noRoom]
    exact congrArg _ link
  · rw [left.line, ((latch_haltsTheLine y rfl).1 (by rw [show y.line = s.line from line]; exact running)).1,
      show y.line = s.line from line]
  · obtain ⟨seq, map⟩ := State.latch_notHeld (s := y) (e := .handoffBacklog) rfl
      (by rw [State.haltIsHeld, show y.line = s.line from line]; exact notHeld)
    have same := left.seq.trans seq
    refine ⟨(s.afterCopy_takesCopy v).congr (by rw [same]; rfl) (by rw [same]; rfl) (by rw [same]; rfl), ?_⟩
    rw [State.panel?_late (s := y.latch .handoffBacklog) (by rw [left.map]), State.panel?, map]
    exact listed
  · obtain ⟨enters, wasOut⟩ := State.latch_held (s := y) (e := .handoffBacklog) rfl
      (by rw [State.haltIsHeld, show y.line = s.line from line]; exact isHeld)
    obtain ⟨taken, -⟩ := s.afterCopy_takesCopy v
    have delivered := taken c current (own.trans w.number) open_
    have state : y.seq.state =
        if (Play.setUp (ahead c.entry s.cfg.bDist) v.found s.tracker.stretch).strike = none then .tail else .folding := by
      cases found : v.found with
      | some q => exact ((delivered.1 q found).2 leadIn _ rfl).2
      | none => exact ((delivered.2.1 found).2 leadIn).1
    have panel : ∃ d, y.seq.current = some d ∧ d.panel = p.number := by
      cases found : v.found with
      | some q => exact ⟨_, (delivered.1 q found).1, own⟩
      | none => exact ⟨_, (delivered.2.1 found).1, own⟩
    have late := State.panel?_late (s := y.latch .handoffBacklog) (u := u.takeExits) (by rw [left.map]) p.number
    refine ⟨fun strikes => ?_, fun flat => ?_⟩
    · obtain ⟨seq, -, -, -, -, condemned⟩ := (State.latch_heldRule (s := y) (e := .handoffBacklog)).1
        ⟨enters, wasOut, .inr (by rw [state, if_neg strikes])⟩
      obtain ⟨d, isCurrent, same⟩ := panel
      obtain ⟨-, onList, -⟩ := condemned d isCurrent
      obtain ⟨fresh, kept, -⟩ := onList _ (same ▸ listed)
      refine ⟨by rw [left.seq, seq], by rw [left.seq, seq], ?_⟩
      rw [late, ← same]
      by_cases cause : p.cause = none
      · rw [(fresh cause).1, cause]
        rfl
      · obtain ⟨k, some_⟩ := Option.ne_none_iff_exists'.1 cause
        rw [(kept cause).1, some_]
        exact congrArg some (some_ ▸ rfl)
    · obtain ⟨seq, map, -⟩ := (State.latch_heldRule (s := y) (e := .handoffBacklog)).2
        (.inr (.inr (by rw [state, if_pos flat]; exact ⟨SeqState.noConfusion, SeqState.noConfusion⟩)))
      refine ⟨by rw [left.seq, seq, state, if_pos flat], ?_⟩
      rw [late, State.panel?, map]
      exact listed

end

/-- Settles O43: what a lookup finds, what a copy leaves in the contexts, and the exit that waited for it. -/
theorem sequencerLookupsGiveTheContext : Obligations.SequencerLookupsGiveTheContext := by
  refine ⟨fun st id => ⟨Store.lookup_none, fun i => Store.lookup_some⟩, fun s v serving requester => ⟨fun late => ?_,
    fun f p held after numbers l len blade insertion features body number reached notLate waits bodies behind pending nominal dosed known
      missing => ?_⟩⟩
  · let o : State := { s with store := s.store.endService }
    let u : State := s.afterCopy v
    have noneHeld : ∀ g ∈ u.map.features, g.isHeld = false := by
      refine no_held_of_marks (gs := s.map.features) ?_ fun g mem => ?_
      · have marks := State.fillOutput_marks (s := o) v.lookup.requester v.lookup.panel v.found
        have frame := State.copied_frame (s := o) (r := v.lookup.requester) (n := v.lookup.panel) (found := v.found)
        exact (congrArg (fun x : State => x.map.features.map Feature.marks) frame :).trans marks
      · cases isReached : g.reached with
        | false => exact Feature.isHeld_fresh isReached
        | true => exact Feature.isHeld_late (late g mem isReached)
    have taken : exec .sequencerLookupComplete s = .next u :=
      (exec_sequencerLookupComplete serving requester).trans (congrArg _ (State.takeExits_none noneHeld))
    refine ⟨u, taken, State.copied_fillsOutput o v, s.afterCopy_takesCopy v, ?_, ?_, fun p f next own other => ?_,
      fun dropped => State.copied_dropped (s := o) dropped, ?_⟩
    · have store : u.store = s.store.endService := by simp only [u]; rw [State.afterCopy_frame]
      rw [store]
      exact s.store.endService_wentOn
    · simp only [u]
      rw [State.afterCopy_frame]
    · have key : o.nextKey = some (v.lookup.panel, p.pattern, p.nominal, f.entry) := by
        rw [← own]
        exact congrArg (Option.map fun x : Panel × Feature => (x.1.number, x.1.pattern, x.1.nominal, x.2.entry)) next
      have given := State.copied_own (s := o) (r := v.lookup.requester) (found := v.found) other key
      refine ⟨fun q some_ => given.trans ?_, fun missing => given.trans ?_⟩
      · rw [some_, own]
        rfl
      · rw [missing, own]
        rfl
    · simp only [u]
      exact (s.afterCopy_frame v).trans (by rw [State.afterCopy_frame])
  · have w : s.awaitsExit v f p held after numbers l len :=
      { serving, blade, insertion, features, body, number, reached, notLate, waits, bodies, behind, pending, nominal, dosed, known, missing }
    exact ⟨w.leaves, w.handsOn, w.backlog⟩

end Sys2Proof.Machine
end

section
/-! SUPPORT. A state in which the statement on the features that stay or end at the blade fails. -/

namespace Sys2Proof.Machine

/-- PANEL 1, its fields filled and its exit not reached. -/
def twinPanel : Feature :=
  panelFeature
    { number := 1, pattern := 0, nominal := some 1000, outLen := .value 1000, dose := .absent, cause := none, planDrawn := false } 0

/-- The last station of the line, with a blade and a clear position; its list holds two PANELs of one number, the first at the blade. -/
def twinState : State :=
  { State.reset with
    cfg := { StationConfig.blank with blade := true }
    map := { WebMap.reset with features := [twinPanel, twinPanel] }
    seq := { Sequencer.reset with clearPos := some 0 } }

/-- The PANEL that leaves is rejected SPLICED, and that cause lands on the other PANEL of its number, which is still in the list. -/
theorem twinState_leaves :
    ∃ t, exec .featureAtExit twinState = .next t ∧
      t.map.features.map (fun f => f.panel?.bind fun p => p.cause) = [some .spliced] :=
  ⟨_, rfl, by decide +kernel⟩

/-- Refutes O41: at the last station a PANEL with a clear position leaves its cause on a second PANEL of its number, so the list is
not what was behind the feature. The second part of the statement claims that list without a premise on the numbers behind it. -/
theorem not_featuresStayOrEndAtTheBlade : ¬ Obligations.FeaturesStayOrEndAtTheBlade := by
  rintro ⟨-, last, -⟩
  obtain ⟨t, taken, list, -⟩ := last twinState twinPanel [twinPanel] rfl (by decide) rfl rfl rfl (by decide) (by decide) (by decide +kernel)
    (fun d current => nomatch current)
  obtain ⟨u, actual, causes⟩ := twinState_leaves
  obtain rfl : t = u := Host.Outcome.next.inj (taken.symm.trans actual)
  rw [list] at causes
  exact absurd causes (by decide)

end Sys2Proof.Machine
end

section
/-! SUPPORT. The walk of a pattern visits its elements in play order (R143 to R145). -/

namespace Sys2Proof.Machine

/-! ### Moves of the walk, one after the other -/

/-- `n` moves of the walk lead from one play to another and give these elements. -/
inductive Runs (es : List Entry) : Nat → Play → List Element → Play → Prop
  | here (p : Play) : Runs es 0 p [] p
  | moved {n : Nat} {p q r : Play} {l : List Element} : walkMove es p = .moved q → Runs es n q l r → Runs es (n + 1) p l r
  | yielded {n : Nat} {p q r : Play} {e : Element} {l : List Element} :
      walkMove es p = .yielded e q → Runs es n q l r → Runs es (n + 1) p (e :: l) r

/-- The play walks forward: no mirrored replay is on top of its stack. -/
def Play.forward (p : Play) : Prop := ∀ top rest, p.stack = top :: rest → top.mirror = none

section
variable {es : List Entry} {p q r : Play} {m n : Nat} {k l : List Element}

theorem Runs.trans (first : Runs es n p l q) (second : Runs es m q k r) : Runs es (n + m) p (l ++ k) r := by
  induction first with
  | here p => rwa [Nat.zero_add]
  | moved move _ ih =>
    rw [Nat.add_right_comm]
    exact .moved move (ih second)
  | yielded move _ ih =>
    rw [Nat.add_right_comm]
    exact .yielded move (ih second)

theorem Runs.one_moved (move : walkMove es p = .moved q) : Runs es 1 p [] q := .moved move (.here q)

theorem Runs.one_yielded {e : Element} (move : walkMove es p = .yielded e q) : Runs es 1 p [e] q := .yielded move (.here q)

theorem walkMove_forward (forward : p.forward) : walkMove es p = walkForward es p := by
  unfold walkMove
  split
  · next top rest stack => rw [forward top rest stack]
  · rfl

theorem walkMove_backward {top : RepeatFrame} {rest : List RepeatFrame} {at_ : Nat} (stack : p.stack = top :: rest)
    (mirror : top.mirror = some at_) : walkMove es p = walkBackward es p top at_ := by
  rw [walkMove, stack]
  dsimp only
  rw [mirror]

variable {hand : Hand} {face depth reps : Nat} {gf gd : Int}

/-- The element of repetition `k` of a FOLD. -/
def repetition (hand : Hand) (face depth : Nat) (gf gd : Int) (k : Nat) : Element :=
  .fold (foldConsumption face depth gf gd k) hand (gradedDepth depth gd k)

theorem Entry.elements_fold :
    (Entry.fold hand face depth reps gf gd).elements = (List.range reps).map (repetition hand face depth gf gd) := rfl

theorem walkForward_fold (entry : es[p.pointer]? = some (.fold hand face depth reps gf gd)) :
    walkForward es p =
      if p.rep.getD 0 + 1 < reps then
        .yielded (repetition hand face depth gf gd (p.rep.getD 0)) { p with rep := some (p.rep.getD 0 + 1) }
      else .yielded (repetition hand face depth gf gd (p.rep.getD 0)) { p with rep := none, pointer := p.pointer + 1 } := by
  rw [walkForward, entry]
  rfl

/-- The repetitions of a FOLD from `k` on. -/
theorem Runs.repetitions (forward : p.forward) (entry : es[p.pointer]? = some (.fold hand face depth reps gf gd)) {k : Nat}
    (rep : p.rep.getD 0 = k) (left : k + m + 1 = reps) :
    Runs es (m + 1) p ((List.range' k (m + 1)).map (repetition hand face depth gf gd)) { p with rep := none, pointer := p.pointer + 1 } := by
  induction m generalizing p k with
  | zero =>
    have move : walkMove es p = .yielded (repetition hand face depth gf gd k) { p with rep := none, pointer := p.pointer + 1 } := by
      rw [walkMove_forward forward, walkForward_fold entry, rep, if_neg (by omega)]
    exact .one_yielded move
  | succ m ih =>
    have move : walkMove es p = .yielded (repetition hand face depth gf gd k) { p with rep := some (k + 1) } := by
      rw [walkMove_forward forward, walkForward_fold entry, rep, if_pos (by omega)]
    exact .yielded move (ih (p := { p with rep := some (k + 1) }) forward entry rfl (by omega))

theorem Runs.fold (forward : p.forward) (entry : es[p.pointer]? = some (.fold hand face depth reps gf gd)) (rep : p.rep = none)
    (some_ : 1 ≤ reps) :
    Runs es reps p (Entry.fold hand face depth reps gf gd).elements { p with rep := none, pointer := p.pointer + 1 } := by
  obtain ⟨m, rfl⟩ : ∃ m, reps = m + 1 := ⟨reps - 1, by omega⟩
  rw [Entry.elements_fold, List.range_eq_range']
  exact Runs.repetitions forward entry (by rw [rep]; rfl) (by omega)

theorem Runs.flat (forward : p.forward) {length : Nat} (entry : es[p.pointer]? = some (.flat length)) :
    Runs es 1 p [.flat length] { p with pointer := p.pointer + 1 } := by
  refine .one_yielded ?_
  rw [walkMove_forward forward, walkForward, entry]

/-! ### A mirrored replay (R145) -/

variable {top : RepeatFrame} {rest : List RepeatFrame} {at_ : Nat}

theorem walkBackward_fold (inside : top.start ≤ p.pointer) (entry : es[p.pointer]? = some (.fold hand face depth reps gf gd)) :
    walkBackward es p top at_ =
      if 0 < p.rep.getD (reps - 1) then
        .yielded (repetition hand face depth gf gd (p.rep.getD (reps - 1))).mirrored { p with rep := some (p.rep.getD (reps - 1) - 1) }
      else
        .yielded (repetition hand face depth gf gd (p.rep.getD (reps - 1))).mirrored { p with rep := none, pointer := p.pointer - 1 } := by
  rw [walkBackward, if_neg (by omega), entry]
  rfl

/-- The repetitions of a FOLD from `k` down. -/
theorem Runs.repetitionsBack (stack : p.stack = top :: rest) (mirror : top.mirror = some at_) (inside : top.start ≤ p.pointer)
    (entry : es[p.pointer]? = some (.fold hand face depth reps gf gd)) {k : Nat} (rep : p.rep.getD (reps - 1) = k) :
    Runs es (k + 1) p ((List.range (k + 1)).map fun i => (repetition hand face depth gf gd i).mirrored).reverse
      { p with rep := none, pointer := p.pointer - 1 } := by
  induction k generalizing p with
  | zero =>
    have move : walkMove es p =
        .yielded (repetition hand face depth gf gd 0).mirrored { p with rep := none, pointer := p.pointer - 1 } := by
      rw [walkMove_backward stack mirror, walkBackward_fold inside entry, rep, if_neg (by omega)]
    exact .one_yielded move
  | succ k ih =>
    have move : walkMove es p = .yielded (repetition hand face depth gf gd (k + 1)).mirrored { p with rep := some k } := by
      rw [walkMove_backward stack mirror, walkBackward_fold inside entry, rep, if_pos (by omega)]
      rfl
    rw [List.range_succ, List.map_append, List.reverse_append]
    exact .yielded move (ih (p := { p with rep := some k }) stack inside entry rfl)

/-- Entries that are FOLDs and FLATs alone, with their elements. -/
inductive Plain (es : List Entry) (a : Nat) : Nat → List Element → Prop
  | start : Plain es a a []
  | fold {b : Nat} {els : List Element} {hand : Hand} {face depth reps : Nat} {gf gd : Int} :
      Plain es a b els → es[b]? = some (.fold hand face depth reps gf gd) → 1 ≤ reps →
      Plain es a (b + 1) (els ++ (Entry.fold hand face depth reps gf gd).elements)
  | flat {b : Nat} {els : List Element} {length : Nat} :
      Plain es a b els → es[b]? = some (.flat length) → Plain es a (b + 1) (els ++ [.flat length])

variable {a b : Nat} {els : List Element}

theorem Plain.le (plain : Plain es a b els) : a ≤ b := by
  induction plain with
  | start => exact Nat.le_refl a
  | fold _ _ _ ih => exact Nat.le_succ_of_le ih
  | flat _ _ ih => exact Nat.le_succ_of_le ih

/-- A plain group played backward, with the other hand, up to the entry behind the MIRROR. -/
theorem Plain.back (plain : Plain es a b els) (pos : 1 ≤ a) (stack : p.stack = top :: rest) (mirror : top.mirror = some at_)
    (start : top.start = a) (rep : p.rep = none) (pointer : p.pointer + 1 = b) :
    Runs es (els.length + 1) p (els.map Element.mirrored).reverse { p with rep := none, pointer := at_ + 1, stack := rest } := by
  induction plain generalizing p with
  | start =>
    refine .one_moved ?_
    rw [walkMove_backward stack mirror, walkBackward, if_pos (by omega), stack, ← rep]
    rfl
  | @fold b els hand face depth reps gf gd plain entry some_ ih =>
    have inside := plain.le
    obtain rfl : p.pointer = b := by omega
    have played := Runs.repetitionsBack (k := reps - 1) stack mirror (by omega) entry (by rw [rep]; rfl)
    rw [Nat.sub_add_cancel some_] at played
    have rest := ih (p := { p with rep := none, pointer := p.pointer - 1 }) stack rfl (Nat.sub_add_cancel (by omega))
    have whole := played.trans rest
    rw [List.length_append, Entry.elements_fold, List.length_map, List.length_range, List.map_append, List.reverse_append, List.map_map,
      Nat.add_comm els.length reps, Nat.add_assoc]
    exact whole
  | @flat b els length plain entry ih =>
    have inside := plain.le
    obtain rfl : p.pointer = b := by omega
    have move : walkMove es p = .yielded (.flat length) { p with rep := none, pointer := p.pointer - 1 } := by
      rw [walkMove_backward stack mirror, walkBackward, if_neg (by omega), entry, ← rep]
    have rest := ih (p := { p with rep := none, pointer := p.pointer - 1 }) stack rfl (Nat.sub_add_cancel (by omega))
    rw [List.length_append, List.map_append, List.reverse_append]
    exact .yielded move rest

/-! ### A body: entries with balanced groups -/

/-- A forward play at entry `i` comes to entry `j` in `n` moves with these elements; `last` is the group it closed last, if any. -/
def Body (es : List Entry) (i j : Nat) (els : List Element) (n : Nat) (last : Option (Nat × Nat)) : Prop :=
  ∀ p : Play, p.forward → p.rep = none → p.pointer = i →
    Runs es n p els { p with rep := none, pointer := j, lastClosed := last.or p.lastClosed }

variable {i j c : Nat} {last : Option (Nat × Nat)}

theorem Body.start (es : List Entry) (i : Nat) : Body es i i [] 0 none := by
  intro p _ rep pointer
  have same : { p with rep := none, pointer := i, lastClosed := (none : Option (Nat × Nat)).or p.lastClosed } = p := by
    rw [← rep, ← pointer, Option.none_or]
  rw [same]
  exact .here p

/-- A body goes on with what is run from where it ends. -/
theorem Body.extend (body : Body es i j els n last) {k : Nat} {more : List Element} {newer : Option (Nat × Nat)}
    (step : ∀ p : Play, p.forward → p.rep = none → p.pointer = j → (∀ c, last = some c → p.lastClosed = some c) →
      Runs es m p more { p with rep := none, pointer := k, lastClosed := newer.or p.lastClosed }) :
    Body es i k (els ++ more) (n + m) (newer.or last) := by
  intro p forward rep pointer
  have next := step { p with rep := none, pointer := j, lastClosed := last.or p.lastClosed } forward rfl rfl
    (fun c closed => by rw [closed]; rfl)
  have whole := (body p forward rep pointer).trans next
  rw [Option.or_assoc]
  exact whole

theorem Body.fold (body : Body es i j els n last) (entry : es[j]? = some (.fold hand face depth reps gf gd)) (some_ : 1 ≤ reps) :
    Body es i (j + 1) (els ++ (Entry.fold hand face depth reps gf gd).elements) (n + reps) last := by
  have extended := body.extend (newer := none) (m := reps) (more := (Entry.fold hand face depth reps gf gd).elements) (k := j + 1)
    (fun p forward rep pointer _ => by
      subst pointer
      exact Runs.fold forward entry rep some_)
  rwa [Option.none_or] at extended

theorem Body.flat (body : Body es i j els n last) {length : Nat} (entry : es[j]? = some (.flat length)) :
    Body es i (j + 1) (els ++ [.flat length]) (n + 1) last := by
  have extended := body.extend (newer := none) (m := 1) (more := [.flat length]) (k := j + 1) (fun p forward rep pointer _ => by
    subst pointer
    have run := Runs.flat forward entry
    rw [← rep]
    exact run)
  rwa [Option.none_or] at extended

theorem walkForward_close (close : es[p.pointer]? = some .close) (stack : p.stack = top :: rest) :
    walkForward es p =
      if 1 < top.remaining then
        .moved { p with pointer := top.start, stack := { top with remaining := top.remaining - 1 } :: rest }
      else .moved { p with pointer := p.pointer + 1, stack := rest, lastClosed := some (top.start, p.pointer) } := by
  rw [walkForward, close]
  dsimp only
  rw [stack]

/-- The passes of a group, its body closed each time. -/
theorem Runs.passes {g k : Nat} (body : Body es g k els n last) (close : es[k]? = some .close) (pointer : p.pointer = g)
    (rep : p.rep = none) (stack : p.stack = { start := g, remaining := c + 1, mirror := none } :: rest) :
    Runs es ((c + 1) * (n + 1)) p (List.replicate (c + 1) els).flatten
      { p with rep := none, pointer := k + 1, stack := rest, lastClosed := some (g, k) } := by
  have forward (q : Play) {c : Nat} (stack : q.stack = { start := g, remaining := c, mirror := none } :: rest) : q.forward := by
    intro top rest same
    rw [stack] at same
    rw [← (List.cons.inj same).1]
  induction c generalizing p with
  | zero =>
    let q : Play := { p with rep := none, pointer := k, lastClosed := last.or p.lastClosed }
    have closes : walkMove es q = .moved { p with rep := none, pointer := k + 1, stack := rest, lastClosed := some (g, k) } := by
      rw [walkMove_forward (forward q stack), walkForward_close (p := q) close stack, if_neg (Nat.lt_irrefl 1)]
    have whole := (body p (forward p stack) rep pointer).trans (.one_moved closes)
    rw [List.append_nil] at whole
    simpa using whole
  | succ c ih =>
    let q : Play := { p with rep := none, pointer := k, lastClosed := last.or p.lastClosed }
    let again : Play := { q with pointer := g, stack := { start := g, remaining := c + 1, mirror := none } :: rest }
    have closes : walkMove es q = .moved again := by
      rw [walkMove_forward (forward q stack), walkForward_close (p := q) close stack, if_pos (by dsimp only; omega)]
      rfl
    have whole := (body p (forward p stack) rep pointer).trans (.moved closes (ih (p := again) rfl rfl rfl))
    have moves : n + ((c + 1) * (n + 1) + 1) = (c + 1 + 1) * (n + 1) := by
      rw [Nat.succ_mul (c + 1)]
      omega
    rw [List.replicate_succ, List.flatten_cons, ← moves]
    exact whole

theorem Body.group {g k : Nat} {inner : List Element} {moves : Nat} {within : Option (Nat × Nat)} (body : Body es i g els n last)
    (entry : es[g]? = some (.group c)) (contents : Body es (g + 1) k inner moves within) (close : es[k]? = some .close) (some_ : 1 ≤ c) :
    Body es i (k + 1) (els ++ (List.replicate c inner).flatten) (n + 1 + c * (moves + 1)) (some (g + 1, k)) := by
  have extended := body.extend (newer := some (g + 1, k)) (m := 1 + c * (moves + 1)) (more := (List.replicate c inner).flatten) (k := k + 1)
    (fun p forward rep pointer _ => by
      subst pointer
      obtain ⟨d, rfl⟩ : ∃ d, c = d + 1 := ⟨c - 1, by omega⟩
      have opens : walkMove es p =
          .moved
            { p with pointer := p.pointer + 1, stack := { start := p.pointer + 1, remaining := d + 1, mirror := none } :: p.stack } := by
        rw [walkMove_forward forward, walkForward, entry]
      have passes := Runs.passes (p := { p with
        pointer := p.pointer + 1, stack := { start := p.pointer + 1, remaining := d + 1, mirror := none } :: p.stack }) contents close rfl rep
        rfl
      rw [Nat.add_comm 1]
      exact .moved opens passes)
  rw [← Nat.add_assoc] at extended
  exact extended

theorem Body.mirror {k : Nat} {closed : List Element} (body : Body es i k els n (some (a, b))) (entry : es[k]? = some .mirror) (pos : 1 ≤ a)
    (plain : Plain es a b closed) :
    Body es i (k + 1) (els ++ (closed.map Element.mirrored).reverse) (n + closed.length + 2) (some (a, b)) := by
  have extended := body.extend (newer := none) (m := closed.length + 1 + 1) (more := (closed.map Element.mirrored).reverse) (k := k + 1)
    (fun p forward rep pointer last => by
      subst pointer
      have turns : walkMove es p =
          .moved
            { p with
              pointer := b - 1, stack := { start := a, remaining := 1, mirror := some p.pointer } :: p.stack } := by
        rw [walkMove_forward forward, walkForward, entry]
        dsimp only
        rw [last _ rfl]
      have inside := plain.le
      have back := plain.back (p := { p with
        pointer := b - 1, stack := { start := a, remaining := 1, mirror := some p.pointer } :: p.stack }) pos rfl rfl rfl rep
        (Nat.sub_add_cancel (by omega))
      exact .moved turns back)
  exact extended

end

end Sys2Proof.Machine
end

section
/-! SUPPORT. A pattern of good structure is a body: its walk plays `playOrder` in fewer moves than `walkFuel` (R103, R121, R143 to R145). -/

namespace Sys2Proof.Machine

/-- The moves of the walk an entry makes of itself, beside those of its groups and mirrors. -/
def walkWeight : Entry → Nat
  | .fold _ _ _ r _ _ => r
  | .flat _ => 1
  | .group _ | .close | .mirror => 0

theorem walkFuel_eq (es : List Entry) : walkFuel es = expandedSum walkWeight 1 es + 1 := by
  have same : (fun e : Entry => match e with
      | .fold _ _ _ r _ _ => r
      | .flat _ => 1
      | .group _ | .close | .mirror => 0) = walkWeight := by
    funext e
    cases e <;> rfl
  exact congrArg (fun weight => expandedSum weight 1 es + 1) same

/-- The open groups around entry `i`, where the contents of the innermost begin: each with whether it holds a GROUP, its count, what stood
before it, and the moves up to its contents. -/
inductive Opened (es : List Entry) : Nat → List Bool → List (Nat × List Element) → List (Nat × Nat) → Prop
  | outermost : Opened es 0 [] [] []
  | group {i g c n : Nat} {els : List Element} {last : Option (Nat × Nat)} {holds : Bool} {isOpen : List Bool}
      {elements : List (Nat × List Element)} {moves : List (Nat × Nat)} :
      Opened es i isOpen elements moves → (∀ b rest, isOpen = b :: rest → b = true) → Body es i g els n last →
      es[g]? = some (.group c) → 1 ≤ c →
      Opened es (g + 1) (holds :: isOpen) ((c, els) :: elements) ((c, n + 1) :: moves)

theorem enclosing_head {isOpen rest : List Bool} {b : Bool} (same : enclosing isOpen = b :: rest) : b = true := by
  cases isOpen with
  | nil => cases same
  | cons a l => exact (List.cons.inj same).1.symm

theorem Opened.enclosing {es : List Entry} {i : Nat} {isOpen : List Bool} {elements : List (Nat × List Element)} {moves : List (Nat × Nat)}
    (opened : Opened es i isOpen elements moves) : Opened es i (enclosing isOpen) elements moves := by
  cases opened with
  | outermost => exact .outermost
  | group outer held body entry some_ => exact .group outer held body entry some_

theorem Opened.outermost_start {es : List Entry} {i : Nat} {isOpen : List Bool} {elements : List (Nat × List Element)}
    {moves : List (Nat × Nat)} (opened : Opened es i isOpen elements moves) (none : isOpen = []) : i = 0 := by
  cases opened with
  | outermost => rfl
  | group => cases none

/-- What the first `k` entries come to, in the three readings of the pattern: the structure check, the elements written out, and the moves
counted. `i` is where the innermost open body begins, `last` the group it closed last. -/
structure Walked (es : List Entry) (k i : Nat) (last : Option (Nat × Nat)) (w : StructureWalk) (x : Expansion) (m : Meter) : Prop where
  opened : Opened es i w.isOpen x.isOpen m.stack
  body : Body es i k x.done m.total last
  plain : ∀ rest, w.isOpen = false :: rest → Plain es i k x.done ∧ m.total = x.done.length ∧ 1 ≤ i
  closed : w.afterPlainEnd = true →
    (∀ b rest, w.isOpen = b :: rest → b = true) ∧
      ∃ a b, last = some (a, b) ∧ 1 ≤ a ∧ Plain es a b x.closed ∧ m.last = x.closed.length

theorem Walked.start (es : List Entry) :
    Walked es 0 0 none { isOpen := [], afterPlainEnd := false } { done := [], isOpen := [], closed := [] }
      { total := 0, stack := [], last := 0 } where
  opened := .outermost
  body := Body.start es 0
  plain _ none := nomatch none
  closed plainEnd := nomatch plainEnd

section
variable {es : List Entry} {k i : Nat} {last : Option (Nat × Nat)} {w w' : StructureWalk} {x : Expansion} {m : Meter}

theorem Walked.fold (walked : Walked es k i last w x m) {hand : Hand} {face depth reps : Nat} {gf gd : Int}
    (entry : es[k]? = some (.fold hand face depth reps gf gd)) (some_ : 1 ≤ reps) :
    Walked es (k + 1) i last { w with afterPlainEnd := false } (x.take (.fold hand face depth reps gf gd))
      (m.take walkWeight 1 (.fold hand face depth reps gf gd)) where
  opened := walked.opened
  body := walked.body.fold entry some_
  plain rest inner := by
    obtain ⟨plain, moves, pos⟩ := walked.plain rest inner
    refine ⟨plain.fold entry some_, ?_, pos⟩
    show m.total + reps = (x.done ++ _).length
    rw [List.length_append, Entry.elements_fold, List.length_map, List.length_range, moves]
  closed plainEnd := nomatch plainEnd

theorem Walked.flat (walked : Walked es k i last w x m) {length : Nat} (entry : es[k]? = some (.flat length)) :
    Walked es (k + 1) i last { w with afterPlainEnd := false } (x.take (.flat length)) (m.take walkWeight 1 (.flat length)) where
  opened := walked.opened
  body := walked.body.flat entry
  plain rest inner := by
    obtain ⟨plain, moves, pos⟩ := walked.plain rest inner
    refine ⟨plain.flat entry, ?_, pos⟩
    show m.total + 1 = (x.done ++ [_]).length
    rw [List.length_append, List.length_singleton, moves]
  closed plainEnd := nomatch plainEnd

theorem Walked.group (walked : Walked es k i last w x m) {c : Nat} (entry : es[k]? = some (.group c)) (some_ : 1 ≤ c) :
    Walked es (k + 1) (k + 1) none { isOpen := false :: enclosing w.isOpen, afterPlainEnd := false } (x.take (.group c))
      (m.take walkWeight 1 (.group c)) where
  opened := .group walked.opened.enclosing (fun _ _ => enclosing_head) walked.body entry some_
  body := Body.start es (k + 1)
  plain _ _ := ⟨.start, rfl, Nat.le_add_left 1 k⟩
  closed plainEnd := nomatch plainEnd

theorem Walked.close (walked : Walked es k i last w x m) (entry : es[k]? = some .close) {holds : Bool} {rest : List Bool}
    (isOpen : w.isOpen = holds :: rest) :
    ∃ i' last', Walked es (k + 1) i' last' { isOpen := rest, afterPlainEnd := !holds } (x.take .close) (m.take walkWeight 1 .close) := by
  have opened := walked.opened
  have body := walked.body
  have plain := walked.plain
  obtain ⟨open_, afterPlainEnd⟩ := w
  obtain ⟨done, outer, closed⟩ := x
  obtain ⟨total, stack, lastTotal⟩ := m
  dsimp only at opened body plain isOpen
  subst isOpen
  cases opened with
  | @group i g c n els within holds isOpen elements moves outer held before opens some_ =>
    exact ⟨_, _, { opened := outer, body := before.group opens body entry some_, plain := fun rest inner => (nomatch held _ _ inner),
                   closed := fun plainEnd => by
                    have inner : holds = false := by simpa using plainEnd
                    subst inner
                    obtain ⟨plainBody, moves, pos⟩ := plain _ rfl
                    exact ⟨held, _, _, rfl, pos, plainBody, moves⟩ }⟩

theorem Walked.mirror (walked : Walked es k i last w x m) (entry : es[k]? = some .mirror) (plainEnd : w.afterPlainEnd = true) :
    Walked es (k + 1) i last { w with afterPlainEnd := false } (x.take .mirror) (m.take walkWeight 1 .mirror) := by
  obtain ⟨held, a, b, closedLast, pos, plain, moves⟩ := walked.closed plainEnd
  have body := walked.body
  rw [closedLast] at body
  have extended := body.mirror entry pos plain
  rw [← moves, ← closedLast] at extended
  exact { opened := walked.opened, body := extended, plain := fun rest inner => (nomatch held _ _ inner),
          closed := fun plainEnd => nomatch plainEnd }

/-- One more entry, in the three readings. -/
theorem Walked.step (walked : Walked es k i last w x m) {e : Entry} (entry : es[k]? = some e) (counts : e.counts = true)
    (passes : structureStep (some w) e = some w') :
    ∃ i' last', Walked es (k + 1) i' last' w' (x.take e) (m.take walkWeight 1 e) := by
  cases e with
  | fold hand face depth reps gf gd =>
    obtain rfl := Option.some.inj passes
    exact ⟨i, last, walked.fold entry (of_decide_eq_true counts)⟩
  | flat length =>
    obtain rfl := Option.some.inj passes
    exact ⟨i, last, walked.flat entry⟩
  | group c =>
    have grouped := walked.group entry (of_decide_eq_true counts)
    rw [structureStep_group] at passes
    split at passes
    · obtain rfl := Option.some.inj passes
      exact ⟨k + 1, none, grouped⟩
    · cases passes
  | close =>
    unfold structureStep at passes
    dsimp only at passes
    split at passes
    · cases passes
    · next holds rest isOpen =>
      obtain rfl := Option.some.inj passes
      exact walked.close entry isOpen
  | mirror =>
    unfold structureStep at passes
    dsimp only at passes
    split at passes
    · next plainEnd =>
      obtain rfl := Option.some.inj passes
      exact ⟨i, last, walked.mirror entry plainEnd⟩
    · cases passes

theorem structureFails (l : List Entry) : l.foldl structureStep none = none := by
  induction l with
  | nil => rfl
  | cons e l ih => exact ih

/-- The rest of a pattern, in the three readings. -/
theorem Walked.rest (walked : Walked es k i last w x m) {l : List Entry} (behind : es.drop k = l) (counts : ∀ e ∈ l, e.counts = true)
    (passes : l.foldl structureStep (some w) = some w') :
    ∃ i' last', Walked es (k + l.length) i' last' w' (l.foldl Expansion.take x) (l.foldl (Meter.take walkWeight 1) m) := by
  induction l generalizing k i last w x m with
  | nil =>
    obtain rfl := Option.some.inj passes
    exact ⟨i, last, walked⟩
  | cons e l ih =>
    have entry : es[k]? = some e := by
      rw [← List.head?_drop, behind]
      rfl
    have later : es.drop (k + 1) = l := by
      rw [← List.tail_drop, behind]
      rfl
    rw [List.foldl_cons] at passes
    cases stepped : structureStep (some w) e with
    | none => rw [stepped, structureFails] at passes; cases passes
    | some v =>
      rw [stepped] at passes
      obtain ⟨j, newer, next⟩ := walked.step entry (counts e (List.mem_cons_self ..)) stepped
      have whole := ih next later (fun e mem => counts e (List.mem_cons_of_mem _ mem)) passes
      rw [List.length_cons, Nat.add_comm l.length 1, ← Nat.add_assoc]
      exact whole

end

/-- A pattern of good structure is one body: its elements in play order, in fewer moves than the fuel. -/
theorem body_of_structureGood {es : List Entry} (good : structureGood es = true) (counts : es.all Entry.counts = true) :
    ∃ n last, Body es 0 es.length (playOrder es) n last ∧ n + 1 = walkFuel es := by
  unfold structureGood at good
  split at good
  · next w passes =>
    obtain ⟨i, last, walked⟩ := (Walked.start es).rest rfl (List.all_eq_true.1 counts) passes
    rw [Nat.zero_add] at walked
    obtain rfl := walked.opened.outermost_start (List.isEmpty_iff.1 good)
    exact ⟨_, _, walked.body, (walkFuel_eq es).symm⟩
  · cases good

end Sys2Proof.Machine
end

section
/-! SUPPORT. The strikes of a play, one after the other (R122 to R125). -/

namespace Sys2Proof.Machine

/-! ### The walk does not read the measure -/

/-- The walk of one play with the measure of another. -/
def Play.walking (q p : Play) : Play := { p with pointer := q.pointer, rep := q.rep, stack := q.stack, lastClosed := q.lastClosed }

/-- A move with the measure of another play. -/
def WalkMove.walking (p : Play) : WalkMove → WalkMove
  | .finished => .finished
  | .moved q => .moved (q.walking p)
  | .yielded e q => .yielded e (q.walking p)

section
variable {es : List Entry} {n : Nat} {l : List Element}

theorem walkForward_walking (q p : Play) : walkForward es (q.walking p) = (walkForward es q).walking p := by
  unfold walkForward
  dsimp only [Play.walking]
  cases es[q.pointer]? with
  | none => rfl
  | some e =>
    cases e with
    | fold hand face depth reps gf gd => dsimp only; split <;> rfl
    | flat length => rfl
    | group c => rfl
    | close => cases q.stack with
      | nil => rfl
      | cons top rest => dsimp only; split <;> rfl
    | mirror => cases q.lastClosed <;> rfl

theorem walkBackward_walking (q p : Play) (top : RepeatFrame) (at_ : Nat) :
    walkBackward es (q.walking p) top at_ = (walkBackward es q top at_).walking p := by
  unfold walkBackward
  dsimp only [Play.walking]
  by_cases ended : q.pointer < top.start
  · refine (if_pos ended).trans (Eq.trans ?_ (congrArg (WalkMove.walking p) (if_pos ended).symm))
    rfl
  · refine (if_neg ended).trans (Eq.trans ?_ (congrArg (WalkMove.walking p) (if_neg ended).symm))
    cases es[q.pointer]? with
    | none => rfl
    | some e =>
      cases e with
      | fold hand face depth reps gf gd => dsimp only; split <;> rfl
      | flat length => rfl
      | group c => rfl
      | close => rfl
      | mirror => rfl

theorem walkMove_walking (q p : Play) : walkMove es (q.walking p) = (walkMove es q).walking p := by
  have forward := walkForward_walking (es := es) q p
  have backward := walkBackward_walking (es := es) q p
  unfold walkMove
  rw [show (q.walking p).stack = q.stack from rfl]
  cases q.stack with
  | nil => exact forward
  | cons top rest =>
    cases turned : top.mirror with
    | none => dsimp only; rw [turned]; exact forward
    | some at_ => dsimp only; rw [turned]; exact backward top at_

theorem Runs.walking {q r : Play} (runs : Runs es n q l r) (p : Play) : Runs es n (q.walking p) l (r.walking p) := by
  induction runs with
  | here q => exact .here _
  | moved move _ ih => exact .moved ((walkMove_walking _ p).trans (by rw [move]; rfl)) ih
  | yielded move _ ih => exact .yielded ((walkMove_walking _ p).trans (by rw [move]; rfl)) ih

end

/-! ### The running position (R123) -/

/-- The position and the remainder of a play `n` nominal ticks into its panel. -/
structure Play.measures (p : Play) (base : Pos) (s n : Nat) : Prop where
  position : p.position = ahead base (n * s / 65536)
  remainder : p.remainder = n * s % 65536

theorem Play.measures.addLength {p : Play} {base : Pos} {s n : Nat} (measured : p.measures base s n) (x : Nat) :
    (p.addLength s x).measures base s (n + x) where
  position := by
    show ahead p.position ((x * s + p.remainder) / 65536) = _
    rw [measured.position, measured.remainder, ahead, ahead, ahead, BitVec.add_assoc, ← BitVec.ofNat_add, Nat.add_mul]
    congr 2
    omega
  remainder := by
    show (x * s + p.remainder) % 65536 = _
    rw [measured.remainder, Nat.add_mul]
    omega

/-! ### The strikes still to come -/

/-- The play has these strikes before it, its walk ending within `bound` moves. -/
def Play.leads (es : List Entry) (base : Pos) (s bound : Nat) (p : Play) (strikes : List Strike) : Prop :=
  ∃ n l r consumed, Runs es n p l r ∧ walkMove es r = .finished ∧ n ≤ bound ∧ strikes = strikesFrom base s consumed l ∧
    (strikes = [] ∨ p.measures base s consumed)

section
variable {es : List Entry} {base : Pos} {s bound : Nat} {p : Play} {strikes : List Strike}

theorem Play.toNextStrike_moved {fuel : Nat} {q : Play} (move : walkMove es p = .moved q) :
    Play.toNextStrike es s (fuel + 1) p = Play.toNextStrike es s fuel q := by
  rw [Play.toNextStrike, move]

theorem Play.toNextStrike_flat {fuel length : Nat} {q : Play} (move : walkMove es p = .yielded (.flat length) q) :
    Play.toNextStrike es s (fuel + 1) p = Play.toNextStrike es s fuel (q.addLength s length) := by
  rw [Play.toNextStrike, move]

theorem Play.toNextStrike_fold {fuel c d : Nat} {hand : Hand} {q : Play} (move : walkMove es p = .yielded (.fold c hand d) q) :
    Play.toNextStrike es s (fuel + 1) p =
      { q.addLength s c with strike := some { pos := (q.addLength s c).position, hand := hand, depth := d } } := by
  rw [Play.toNextStrike, move]

/-- From the walk of `q`, with the measure of `p`, to the first strike that is left, if any. -/
theorem toNextStrike_runs {n fuel consumed : Nat} {q r : Play} {l : List Element} (runs : Runs es n q l r)
    (finished : walkMove es r = .finished) (within : n ≤ bound) (enough : n < fuel)
    (measured : strikesFrom base s consumed l = [] ∨ p.measures base s consumed) :
    (Play.toNextStrike es s fuel (q.walking p)).strike = (strikesFrom base s consumed l).head? ∧
      (Play.toNextStrike es s fuel (q.walking p)).leads es base s bound (strikesFrom base s consumed l).tail := by
  induction runs generalizing p fuel consumed with
  | here q =>
    obtain ⟨fuel, rfl⟩ : ∃ k, fuel = k + 1 := ⟨fuel - 1, by omega⟩
    have ends (p : Play) : walkMove es (q.walking p) = .finished := (walkMove_walking q p).trans (by rw [finished]; rfl)
    rw [Play.toNextStrike, ends p]
    exact ⟨rfl, 0, [], _, consumed, .here _, ends { p with strike := none }, Nat.zero_le _, rfl, .inl rfl⟩
  | @moved n q v r l move rest ih =>
    obtain ⟨fuel, rfl⟩ : ∃ k, fuel = k + 1 := ⟨fuel - 1, by omega⟩
    rw [Play.toNextStrike_moved ((walkMove_walking q p).trans (by rw [move]; rfl))]
    exact ih finished (by omega) (by omega) measured
  | @yielded n q v r e l move rest ih =>
    obtain ⟨fuel, rfl⟩ : ∃ k, fuel = k + 1 := ⟨fuel - 1, by omega⟩
    cases e with
    | flat length =>
      rw [Play.toNextStrike_flat ((walkMove_walking q p).trans (by rw [move]; rfl))]
      exact ih (p := p.addLength s length) finished (by omega) (by omega) (measured.imp_right fun at_ => at_.addLength length)
    | fold c hand d =>
      have at_ : p.measures base s consumed := measured.resolve_left (List.cons_ne_nil _ _)
      have next := at_.addLength c
      rw [Play.toNextStrike_fold ((walkMove_walking q p).trans (by rw [move]; rfl))]
      let taken : Play :=
        { (v.walking p).addLength s c with strike := some { pos := ((v.walking p).addLength s c).position, hand := hand, depth := d } }
      refine ⟨?_, n, l, _, consumed + c, rest.walking taken, ?_, by omega, rfl, .inr ⟨next.position, next.remainder⟩⟩
      · show some (Strike.mk (p.addLength s c).position hand d) = _
        rw [next.position]
        rfl
      · exact (walkMove_walking r _).trans (by rw [finished]; rfl)

/-- The walk comes to the first strike that is left, if any. -/
theorem Play.leads.next {fuel : Nat} (leads : p.leads es base s bound strikes) (enough : bound < fuel) :
    (Play.toNextStrike es s fuel p).strike = strikes.head? ∧ (Play.toNextStrike es s fuel p).leads es base s bound strikes.tail := by
  obtain ⟨n, l, r, consumed, runs, finished, within, rfl, measured⟩ := leads
  exact toNextStrike_runs (p := p) runs finished within (by omega) measured

/-- Where no strike is left, the measure is of no account. -/
theorem Play.leads.spent {q : Play} (leads : q.leads es base s bound []) (p : Play) : (q.walking p).leads es base s bound [] := by
  obtain ⟨n, l, r, consumed, runs, finished, within, spent, -⟩ := leads
  exact ⟨n, l, _, consumed, runs.walking p, (walkMove_walking r p).trans (by rw [finished]; rfl), within, spent, .inl rfl⟩

end

section
variable {p : Pattern} {base : Pos} {s : Nat}

theorem Play.leads.nextStrike {bound : Nat} {q : Play} {strikes : List Strike} (leads : q.leads p.entries base s bound strikes)
    (enough : bound < walkFuel p.entries) :
    (q.nextStrike (some p) s).strike = strikes.head? ∧ (q.nextStrike (some p) s).leads p.entries base s bound strikes.tail := by
  obtain ⟨strike, rest⟩ := leads.next enough
  cases strikes with
  | cons k more =>
    have taken : q.nextStrike (some p) s = Play.toNextStrike p.entries s (walkFuel p.entries) q := by
      rw [Play.nextStrike, strike]
      rfl
    rw [taken]
    exact ⟨strike, rest⟩
  | nil =>
    let r := Play.toNextStrike p.entries s (walkFuel p.entries) q
    have taken : q.nextStrike (some p) s = { r with position := q.position, remainder := q.remainder, computed := q.computed } := by
      rw [Play.nextStrike, strike]
      rfl
    rw [taken]
    exact ⟨strike, rest.spent { r with position := q.position, remainder := q.remainder, computed := q.computed }⟩

/-- A pattern's play set up: its strikes lie before it in play order. -/
theorem playAfter_leads (good : structureGood p.entries = true) (counts : p.entries.all Entry.counts = true) (n : Nat) :
    ∃ bound, bound < walkFuel p.entries ∧
      (playAfter base s p n).strike = (strikesFrom base s p.leadIn (playOrder p.entries))[n]? ∧
      (playAfter base s p n).leads p.entries base s bound ((strikesFrom base s p.leadIn (playOrder p.entries)).drop (n + 1)) := by
  obtain ⟨moves, last, body, fuel⟩ := body_of_structureGood good counts
  induction n with
  | zero =>
    let start : Play :=
      { pointer := 0, rep := none, stack := [], lastClosed := none, position := base, remainder := 0, computed := 0, strike := none }
    have measured : start.measures base s 0 := ⟨by simp [start, ahead], by simp [start]⟩
    have forward : (start.addLength s p.leadIn).forward := fun top rest (none : [] = top :: rest) => nomatch none
    have ends : walkMove p.entries
        { start.addLength s p.leadIn with
          rep := none, pointer := p.entries.length, lastClosed := last.or (start.addLength s p.leadIn).lastClosed } = .finished := by
      have out : p.entries[p.entries.length]? = none := List.getElem?_eq_none (Nat.le_refl _)
      refine (walkMove_forward ?_).trans ?_
      · exact fun top rest (none : [] = top :: rest) => nomatch none
      · rw [walkForward, out]
    have leads : (start.addLength s p.leadIn).leads p.entries base s moves (strikesFrom base s p.leadIn (playOrder p.entries)) := by
      refine ⟨moves, _, _, 0 + p.leadIn, body _ forward rfl rfl, ends, Nat.le_refl _, ?_, .inr (measured.addLength p.leadIn)⟩
      rw [Nat.zero_add]
    obtain ⟨strike, rest⟩ := leads.next (fuel := walkFuel p.entries) (by omega)
    rw [List.head?_eq_getElem?] at strike
    rw [← List.drop_one] at rest
    exact ⟨moves, by omega, strike, rest⟩
  | succ n ih =>
    obtain ⟨bound, enough, -, leads⟩ := ih
    obtain ⟨strike, rest⟩ := leads.nextStrike enough
    rw [List.head?_drop] at strike
    rw [List.tail_drop] at rest
    exact ⟨bound, enough, strike, rest⟩

end

end Sys2Proof.Machine
end

section
/-! SUPPORT. A strike position reached at the blade (R126, R146 to R149, R151). -/

namespace Sys2Proof.Machine

section
variable {s : State} {p : Play} {k : Strike} {d : Context} {c : RejectCause}

theorem atOrBefore_iff {a b : Pos} : atOrBefore a b = true ↔ 0 ≤ travel b a := decide_eq_true_iff

theorem State.dueStrike_eq (folding : s.seq.state = .folding) (play : s.seq.play = some p) (strike : p.strike = some k) :
    s.dueStrike = if atOrBefore k.pos s.tracker.position then some (p, k) else none := by
  rw [State.dueStrike, folding, play]
  dsimp only
  rw [strike]

theorem exec_strikePositionReached_early (folding : s.seq.state = .folding) (play : s.seq.play = some p) (strike : p.strike = some k)
    (early : travel s.tracker.position k.pos < 0) : exec .strikePositionReached s = .next s := by
  show execStrikePositionReached s = _
  rw [execStrikePositionReached, State.dueStrike_eq folding play strike, if_neg (by rw [atOrBefore_iff]; omega)]

theorem exec_strikePositionReached (folding : s.seq.state = .folding) (play : s.seq.play = some p) (strike : p.strike = some k)
    (reached : 0 ≤ travel s.tracker.position k.pos) : exec .strikePositionReached s = .next (s.strikeReached p k) := by
  show execStrikePositionReached s = _
  rw [execStrikePositionReached, State.dueStrike_eq folding play strike, if_pos (atOrBefore_iff.2 reached)]

theorem State.strike_eq :
    s.strike p k =
      { s with
        seq :=
          { s.seq with
            state :=
              if (p.nextStrike (s.seq.current.bind fun c => c.pattern) s.tracker.stretch).strike = none then .tail else .folding
            play := some (p.nextStrike (s.seq.current.bind fun c => c.pattern) s.tracker.stretch)
            strokeTimer := some (s.cfg.tStroke * 1000)
            bladeStrobe := true
            bladeHand := k.hand
            bladeDepth := BitVec.ofNat 12 k.depth } } := by
  let q := p.nextStrike (s.seq.current.bind fun c => c.pattern) s.tracker.stretch
  exact congrArg
    (fun st =>
      { s with
        seq :=
          { s.seq with
            state := st
            play := some q
            strokeTimer := some (s.cfg.tStroke * 1000)
            bladeStrobe := true
            bladeHand := k.hand
            bladeDepth := BitVec.ofNat 12 k.depth } })
    (folding_or_tail q.strike)

theorem State.strikeReached_run (run : s.line.state = .run) :
    s.strikeReached p k =
      if s.seq.strokeTimer = none then s.strike p k else (s.flag .strokeOverrun).abandonPanel .overrun := by
  rw [State.strikeReached, run]

theorem State.strikeReached_other (other : s.line.state ≠ .run) : s.strikeReached p k = s.abandonPanel .halted := by
  unfold State.strikeReached
  split
  case h_1 run => exact absurd run other
  all_goals rfl

/-- A panel that has left is given up with a notice. -/
theorem State.abandonPanel_gone (current : s.seq.current = some d) (gone : d.panel ∉ panelNumbers s.map.features)
    (notLast : s.isLast = false) (few : s.link.handoffFifo.length < 8) (single : s.events.has .duplicateIndex = false) :
    s.abandonPanel c =
      { s with
        plan := s.planAfter d.panel c
        link :=
          { s.link with
            handoffFifo :=
              s.link.handoffFifo ++
                [{ id := s.link.serial, payload := .handoffReject (BitVec.ofNat 32 d.panel) (BitVec.ofNat 8 c.code) }]
            serial := s.link.serial + 1 }
        seq := { s.seq with state := .runout, play := none } } := by
  have absent : s.panel? d.panel = none := by
    rw [← Option.not_isSome_iff_eq_none, State.panel?_isSome]
    exact gone
  rw [State.abandonPanel, current]
  dsimp only
  rw [State.condemn_gone absent, State.noticeOf_room notLast (State.handoffRoom_iff.2 ⟨few, single⟩)]
  rfl

end

/-- Settles O48: the strikes at the blade, and the walk of a pattern against its elements in play order. -/
theorem strikesAreMadeOverrunOrMissed : Obligations.StrikesAreMadeOverrunOrMissed := by
  refine ⟨fun s => ⟨fun p k folding play strike => ⟨exec_strikePositionReached_early folding play strike, fun reached => ?_⟩, fun runs => ?_,
    fun q clear => ⟨fun ahead => ?_, fun passed => ?_⟩⟩, fun p base s good counts n => ?_⟩
  · have taken := exec_strikePositionReached folding play strike reached
    refine ⟨fun run idle q same => ?_, fun run busy d current => ⟨_, taken, ?_⟩, fun other d current => ⟨_, taken, ?_⟩,
      fun d current gone notLast few single => ⟨fun run busy => ?_, fun other => ?_⟩⟩
    · subst same
      rw [taken, State.strikeReached_run run, if_pos idle, State.strike_eq]
    · rw [State.strikeReached_run run, if_neg busy]
      exact (s.flag .strokeOverrun).abandonPanel_givesUpPanel d .overrun current
    · rw [State.strikeReached_other other]
      exact s.abandonPanel_givesUpPanel d .halted current
    · have other : Event.duplicateIndex ≠ .strokeOverrun := nofun
      have flagged : (s.flag .strokeOverrun).events.has .duplicateIndex = false := (EventLatch.has_set_other other).trans single
      rw [taken, State.strikeReached_run run, if_neg busy,
        State.abandonPanel_gone (s := s.flag .strokeOverrun) current gone notLast few flagged]
      rfl
    · rw [taken, State.strikeReached_other other, State.abandonPanel_gone current gone notLast few single]
      rfl
  · exact congrArg _ (if_pos runs)
  · show execSpliceClearPassed s = _
    rw [execSpliceClearPassed, clear]
    exact congrArg _ (if_neg (by rw [atOrBefore_iff]; omega))
  · show execSpliceClearPassed s = _
    rw [execSpliceClearPassed, clear]
    exact congrArg _ (if_pos (atOrBefore_iff.2 passed))
  · obtain ⟨-, -, strike, -⟩ := playAfter_leads (p := p) (base := base) (s := s) good counts n
    exact strike

end Sys2Proof.Machine
end

section
/-! SUPPORT. A feature that reaches the blade and leaves (R79, R86, R132, R135, R138, R140, R141, R150). -/

namespace Sys2Proof.Machine

/-! ### The next context, settled anew (R132, R135, R136) -/

section
variable {s : State} {before rest : List Feature} {g : Feature} {q : Panel}

theorem Lookup.isInsertionOf_iff {l : Lookup} {n : Nat} : l.isInsertionOf n = true ↔ l.requester = .insertion ∧ l.panel = n := by
  rw [Lookup.isInsertionOf, Bool.and_eq_true, decide_eq_true_iff, decide_eq_true_iff]

theorem Store.insertionOutstanding_iff {st : Store} {n : Nat} : st.insertionOutstanding n = true ↔ st.insertionPending n := by
  rw [Store.insertionOutstanding, Bool.or_eq_true, List.any_eq_true]
  constructor
  · rintro (⟨l, waits, own⟩ | served)
    · obtain ⟨requester, panel⟩ := Lookup.isInsertionOf_iff.1 own
      exact ⟨l, requester, panel, .inl waits⟩
    · split at served
      case h_1 v serving =>
        obtain ⟨requester, panel⟩ := Lookup.isInsertionOf_iff.1 served
        exact ⟨v.lookup, requester, panel, .inr ⟨v, serving, rfl⟩⟩
      case h_2 => exact nomatch served
  · rintro ⟨l, requester, panel, waits | ⟨v, serving, rfl⟩⟩
    · exact .inl ⟨l, waits, Lookup.isInsertionOf_iff.2 ⟨requester, panel⟩⟩
    · refine .inr ?_
      rw [serving]
      exact Lookup.isInsertionOf_iff.2 ⟨requester, panel⟩

theorem State.nextPanel_none (none : ∀ g ∈ s.map.features, g.panel? = none) : s.nextPanel = Option.none := by
  have absent : (s.map.features.find? fun f => f.panel?.isSome && !f.reached) = Option.none :=
    List.find?_eq_none.2 fun g mem => by rw [none g mem]; nofun
  rw [State.nextPanel, absent]

theorem State.nextPanel_first (features : s.map.features = before ++ g :: rest) (skipped : ∀ h ∈ before, h.panel? = none)
    (panel : g.panel? = some q) (fresh : g.reached = false) : s.nextPanel = some (q, g) := by
  have found : (s.map.features.find? fun f => f.panel?.isSome && !f.reached) = some g := by
    rw [features]
    exact find?_append_of_skipped (fun h mem => by rw [skipped h mem]; rfl) (by rw [panel, fresh]; rfl) rest
  rw [State.nextPanel, found]
  exact congrArg (Option.map fun p => (p, g)) panel

theorem State.nextIs_none {n : Nat} (empty : s.seq.next = none) : s.nextIs n = false := by rw [State.nextIs, empty]

/-- A late copy is asked for where no insertion lookup is to come. -/
theorem State.settleNext_lateCopy (blade : s.cfg.blade = true) (first : s.nextPanel = some (q, g)) (other : s.nextIs q.number = false)
    (pattern : q.pattern ≠ 0) (quiet : s.store.insertionOutstanding q.number = false) :
    s.settleNext =
      State.requestLookup { s with seq := { s.seq with next := some (Context.outstanding q.number q.pattern g.entry q.nominal) } }
        { requester := .lateCopy, panel := q.number, id := q.pattern } := by
  simp only [State.settleNext, blade, first, other, pattern, quiet, if_true, if_false, Bool.false_eq_true]

theorem State.settleNext_settles (blade : s.cfg.blade = true) (empty : s.seq.next = none)
    (fresh : ∀ g ∈ s.map.features, g.reached = false) : s.settlesNext s.settleNext s.map.features := by
  refine ⟨fun none => ?_, fun before rest g q features skipped panel => ?_⟩
  · rw [State.settleNext, if_pos blade, State.nextPanel_none none]
    exact ⟨rfl, rfl⟩
  · have first := State.nextPanel_first features skipped panel (fresh g (by rw [features]; exact List.mem_append_cons_self))
    have other : s.nextIs q.number = false := State.nextIs_none empty
    obtain ⟨-, flat, outstanding⟩ := s.settleNext_seq blade g q first
    refine ⟨fun zero => ?_, fun pattern => ?_⟩
    · obtain ⟨store, -, seq⟩ := flat other zero
      exact ⟨store, (congrArg Sequencer.next seq :)⟩
    · cases pending : s.store.insertionOutstanding q.number with
      | true =>
        obtain ⟨store, -, seq⟩ := outstanding other pattern pending
        exact ⟨(congrArg Sequencer.next seq :), fun _ => store, fun quiet => absurd (Store.insertionOutstanding_iff.1 pending) quiet⟩
      | false =>
        rw [State.settleNext_lateCopy blade first other pattern pending]
        refine ⟨rfl, fun waits => ?_, fun _ => Store.request_asked_sequencer _ _ (nofun : Requester.lateCopy ≠ .webMap)⟩
        exact nomatch (Store.insertionOutstanding_iff.2 waits).symm.trans pending

end

/-! ### What the Sequencer gives up and takes (R137, R138, R140, R141) -/

section
variable {s : State} {p : Panel} {c : Context} {k : RejectCause}

/-- The state with these REJECT notices behind the handoffs that wait, this plan, and the Sequencer in this state with this play. -/
def State.rejecting (s : State) (rejects : List Payload) (plan : PlanQueue) (state : SeqState) (play : Option Play) : State :=
  { s with
    plan := plan
    link :=
      { s.link with
        handoffFifo := s.link.handoffFifo ++ framesFrom s.link.serial rejects
        serial := s.link.serial + rejects.length }
    seq := { s.seq with state := state, play := play } }

theorem State.rejecting_none : s.rejecting [] s.plan s.seq.state s.seq.play = s :=
  congrArg (fun fifo => { s with link := { s.link with handoffFifo := fifo } }) (List.append_nil s.link.handoffFifo)

/-- The notices that give up the current panel. -/
def State.givingUp (s : State) (k : RejectCause) : List Payload :=
  s.seq.current.toList.map fun d => .handoffReject (BitVec.ofNat 32 d.panel) (BitVec.ofNat 8 k.code)

/-- The plan after the current panel is given up. -/
def State.planWithout (s : State) (k : RejectCause) : PlanQueue := s.seq.current.elim s.plan fun d => s.planAfter d.panel k

theorem State.givingUp_length : (s.givingUp k).length ≤ 1 := by
  rw [State.givingUp, List.length_map]
  cases s.seq.current with
  | none => exact Nat.zero_le 1
  | some d => exact Nat.le_refl 1

theorem State.planWithout_kept {t : State} (plan : t.plan = s.planWithout k) : s.planKept t := by
  unfold State.planWithout at plan
  cases current : s.seq.current with
  | none => rw [current] at plan; exact .inl plan
  | some d => rw [current] at plan; exact s.planAfter_kept t d.panel k plan

theorem State.planWithout_away (away : s.cfg.origin = false) : s.planWithout k = s.plan := by
  unfold State.planWithout
  cases s.seq.current with
  | none => rfl
  | some d => exact State.planAfter_away away

/-- The current panel, if any, has left: it is given up with a notice. -/
theorem State.abandonPanel_rejecting (gone : ∀ d, s.seq.current = some d → d.panel ∉ panelNumbers s.map.features)
    (notLast : s.isLast = false) (few : s.link.handoffFifo.length < 8) (single : s.events.has .duplicateIndex = false) :
    s.abandonPanel k = s.rejecting (s.givingUp k) (s.planWithout k) .runout none := by
  unfold State.givingUp State.planWithout
  cases current : s.seq.current with
  | none =>
    rw [State.abandonPanel, current]
    exact congrArg (fun t : State => { t with seq := { t.seq with state := .runout, play := none } }) State.rejecting_none.symm
  | some d =>
    rw [State.abandonPanel_gone current (gone d current) notLast few single]
    rfl

/-- The panel before is TRUNCATED with a notice in LEAD_IN and FOLDING, and stays as it is in the other states. -/
theorem State.truncate_rejecting (gone : ∀ d, s.seq.current = some d → d.panel ∉ panelNumbers s.map.features)
    (notLast : s.isLast = false) (few : s.link.handoffFifo.length < 8) (single : s.events.has .duplicateIndex = false) :
    ∃ rejects plan state play,
      s.truncate = s.rejecting rejects plan state play ∧ rejects.length ≤ 1 ∧ s.planKept s.truncate ∧
        (s.cfg.origin = false → plan = s.plan) ∧
        (s.seq.state = .idle ∨ s.seq.state = .tail ∨ s.seq.state = .runout → rejects = []) ∧
        (s.seq.state = .leadIn ∨ s.seq.state = .folding → rejects = s.givingUp .truncated) := by
  by_cases plays : s.seq.state = .leadIn ∨ s.seq.state = .folding
  · have truncates : s.truncate = s.rejecting (s.givingUp .truncated) (s.planWithout .truncated) .runout none :=
      .trans (by rw [State.truncate]; rcases plays with state | state <;> rw [state])
        (State.abandonPanel_rejecting (k := .truncated) gone notLast few single)
    refine ⟨_, _, _, _, truncates, State.givingUp_length, State.planWithout_kept (k := .truncated) (by rw [truncates]; rfl),
      State.planWithout_away, fun rests => ?_, fun _ => rfl⟩
    rcases plays with state | state <;> rw [state] at rests <;> simp at rests
  · have same : s.truncate = s := by
      rw [State.truncate]
      split
      case h_1 state => exact absurd (.inl state) plays
      case h_2 state => exact absurd (.inr state) plays
      all_goals rfl
    exact ⟨[], s.plan, s.seq.state, s.seq.play, same.trans State.rejecting_none.symm, Nat.zero_le 1, .inl (by rw [same]), fun _ => rfl,
      fun _ => rfl, fun state => absurd state plays⟩

/-- The context becomes current, before the next one is settled. -/
def State.makesCurrent (s : State) (c : Context) (n : Nat) : State :=
  let t := { s with seq := { s.seq with current := some c, next := none, play := none } }
  match s.seq.clearPos with
  | some _ => State.condemn { t with seq := { t.seq with state := .runout } } n .spliced
  | none => if c.delivered then t.startPlay c else { t with seq := { t.seq with state := .leadIn } }

theorem State.panelAtBlade_eq {f : Feature} (next : s.truncate.seq.next = some c) (own : c.panel = p.number) :
    s.panelAtBlade p f = (s.truncate.makesCurrent c p.number).settleNext := by
  have context : s.truncate.contextFor p f = c := by rw [State.contextFor, next]; exact if_pos own
  exact congrArg (fun d => (s.truncate.makesCurrent d p.number).settleNext) context

/-- The play and the state of the panel that becomes current: with a clear position it passes, as OUTSTANDING it waits, and as DELIVERED
it is set up. -/
def State.playOf (s : State) (c : Context) : Option Play :=
  if s.seq.clearPos = none ∧ c.delivered = true then some (Play.setUp (ahead c.entry s.cfg.bDist) c.pattern s.tracker.stretch) else none

def State.stateOf (s : State) (c : Context) : SeqState :=
  if s.seq.clearPos = none then
    if c.delivered = true then
      if (Play.setUp (ahead c.entry s.cfg.bDist) c.pattern s.tracker.stretch).strike = none then .tail else .folding
    else .leadIn
  else .runout

/-- The notices that the panel that becomes current goes with. -/
def State.refusing (s : State) (n : Nat) : List Payload :=
  if s.seq.clearPos = none then [] else [.handoffReject (BitVec.ofNat 32 n) 2]

theorem State.makesCurrent_rejecting {n : Nat} (gone : n ∉ panelNumbers s.map.features) (notLast : s.isLast = false)
    (few : s.link.handoffFifo.length < 8) (single : s.events.has .duplicateIndex = false) :
    s.makesCurrent c n =
      State.rejecting { s with seq := { s.seq with current := some c, next := none } } (s.refusing n)
        (if s.seq.clearPos = none then s.plan else s.planAfter n .spliced) (s.stateOf c) (s.playOf c) := by
  unfold State.refusing State.stateOf State.playOf State.makesCurrent
  cases clear : s.seq.clearPos with
  | none =>
    cases delivered : c.delivered with
    | false => exact (State.rejecting_none (s := State.mk ..)).symm
    | true => exact (State.startPlay_eq _ c).trans (State.rejecting_none (s := State.mk ..)).symm
  | some q =>
    let u : State := { s with seq := { s.seq with current := some c, next := none, play := none, state := .runout } }
    have absent : u.panel? n = none := by
      rw [← Option.not_isSome_iff_eq_none, State.panel?_isSome]
      exact gone
    exact (State.condemn_gone (s := u) (c := .spliced) absent).trans
      (State.noticeOf_room (s := u) notLast (State.handoffRoom_iff.2 ⟨few, single⟩))

theorem State.stateOf_plays (clear : s.seq.clearPos = none) (delivered : c.delivered = true) :
    s.playOf c = some (Play.setUp (ahead c.entry s.cfg.bDist) c.pattern s.tracker.stretch) ∧
      s.stateOf c = if ((Play.setUp (ahead c.entry s.cfg.bDist) c.pattern s.tracker.stretch).strike).isSome then .folding else .tail := by
  refine ⟨if_pos ⟨clear, delivered⟩, ?_⟩
  rw [State.stateOf, if_pos clear, if_pos delivered]
  cases (Play.setUp (ahead c.entry s.cfg.bDist) c.pattern s.tracker.stretch).strike <;> rfl

theorem State.stateOf_waits (clear : s.seq.clearPos = none) (waits : c.delivered = false) :
    s.playOf c = none ∧ s.stateOf c = .leadIn := by
  refine ⟨if_neg fun both => absurd both.2 (by rw [waits]; nofun), ?_⟩
  rw [State.stateOf, if_pos clear]
  exact if_neg (by rw [waits]; nofun)

theorem State.stateOf_passes (blocked : s.seq.clearPos ≠ none) : s.playOf c = none ∧ s.stateOf c = .runout :=
  ⟨if_neg fun both => blocked both.1, if_neg blocked⟩

theorem framesFrom_append (serial : Nat) (ps qs : List Payload) :
    framesFrom serial (ps ++ qs) = framesFrom serial ps ++ framesFrom (serial + ps.length) qs := by
  induction ps generalizing serial with
  | nil => rfl
  | cons p ps ih =>
    have step := ih (serial + 1)
    rw [Nat.add_right_comm, Nat.add_assoc] at step
    exact congrArg _ step

theorem framesFrom_length (serial : Nat) (ps : List Payload) : (framesFrom serial ps).length = ps.length := by
  rw [← List.length_map, framesFrom_payloads]

/-- The state with these notices and plan, the context of the panel current. -/
def State.taking (s : State) (c : Context) (rejects : List Payload) (plan : PlanQueue) : State :=
  State.rejecting { s with seq := { s.seq with current := some c, next := none } } rejects plan (s.stateOf c) (s.playOf c)

theorem State.taking_append {rejects more : List Payload} {plan last : PlanQueue} {state : SeqState} {play : Option Play} :
    (s.rejecting rejects plan state play).taking c more last = s.taking c (rejects ++ more) last := by
  have serial : s.link.serial + rejects.length + more.length = s.link.serial + (rejects ++ more).length := by
    rw [List.length_append, Nat.add_assoc]
  have fifo : s.link.handoffFifo ++ framesFrom s.link.serial rejects ++ framesFrom (s.link.serial + rejects.length) more =
      s.link.handoffFifo ++ framesFrom s.link.serial (rejects ++ more) := by
    rw [framesFrom_append, List.append_assoc]
  unfold State.taking
  unfold State.rejecting
  rw [← serial, ← fifo]
  rfl

/-- A PANEL at the blade that has left the list: the notice for the panel before it, in LEAD_IN and FOLDING, and its own, under a clear
position. -/
theorem State.panelAtBlade_taking {f : Feature} (next : s.seq.next = some c) (own : c.panel = p.number)
    (gone : ∀ d, s.seq.current = some d → d.panel ∉ panelNumbers s.map.features) (left : p.number ∉ panelNumbers s.map.features)
    (notLast : s.isLast = false) (few : s.link.handoffFifo.length < 7) (single : s.events.has .duplicateIndex = false) :
    ∃ rejects plan,
      s.panelAtBlade p f = (s.taking c (rejects ++ s.refusing p.number) plan).settleNext ∧
        s.planKept (s.taking c (rejects ++ s.refusing p.number) plan) ∧ (s.cfg.origin = false → plan = s.plan) ∧
        (s.seq.state = .idle ∨ s.seq.state = .tail ∨ s.seq.state = .runout → rejects = []) ∧
        (s.seq.state = .leadIn ∨ s.seq.state = .folding → rejects = s.givingUp .truncated) := by
  obtain ⟨rejects, plan, state, play, truncated, short, kept, away, rests, plays⟩ :=
    State.truncate_rejecting gone notLast (Nat.lt_succ_of_lt few) single
  let y := s.rejecting rejects plan state play
  have room : y.link.handoffFifo.length < 8 := by
    have length : y.link.handoffFifo.length = s.link.handoffFifo.length + rejects.length := by
      rw [← framesFrom_length s.link.serial rejects, ← List.length_append]
      rfl
    omega
  let last := if s.seq.clearPos = none then plan else y.planAfter p.number .spliced
  have made : y.makesCurrent c p.number = s.taking c (rejects ++ s.refusing p.number) last :=
    (State.makesCurrent_rejecting (s := y) left notLast room single).trans State.taking_append
  have taken : s.panelAtBlade p f = (y.makesCurrent c p.number).settleNext :=
    (State.panelAtBlade_eq (by rw [truncated]; exact next) own).trans (by rw [truncated])
  refine ⟨rejects, last, by rw [taken, made], ?_, fun notOrigin => ?_, rests, plays⟩
  · rw [truncated] at kept
    refine State.planKept.trans (t := y) kept rfl ?_
    by_cases clear : s.seq.clearPos = none
    · exact .inl (if_pos clear)
    · exact State.planAfter_kept y _ p.number .spliced (if_neg clear)
  · by_cases clear : s.seq.clearPos = none
    · exact (if_pos clear).trans (away notOrigin)
    · exact (if_neg clear).trans ((State.planAfter_away (s := y) notOrigin).trans (away notOrigin))

/-- What the act of the Sequencer shows, the next context settled for the PANELs behind. -/
theorem State.taking_takesCurrent {rejects : List Payload} {plan : PlanQueue} (blade : s.cfg.blade = true)
    (fresh : ∀ g ∈ s.map.features, g.reached = false) :
    s.takesCurrent (s.taking c rejects plan).settleNext c s.map.features := by
  let m := s.taking c rejects plan
  have settled := State.settleNext_settles (s := m) blade rfl fresh
  obtain ⟨t, same⟩ : ∃ t, t = m.settleNext := ⟨_, rfl⟩
  have frame := m.settleNext_frame
  rw [← same] at frame settled
  have seq : t.seq = { m.seq with next := t.seq.next } := (congrArg State.seq frame :)
  have play : t.seq.play = s.playOf c := (congrArg Sequencer.play seq :)
  have state : t.seq.state = s.stateOf c := (congrArg Sequencer.state seq :)
  have current : t.seq.current = some c := (congrArg Sequencer.current seq :)
  show s.takesCurrent m.settleNext c s.map.features
  rw [← same]
  refine ⟨current, fun clear delivered => ?_, fun clear waits => ?_, fun blocked => ?_, ?_, settled⟩
  · rw [play, state]
    exact State.stateOf_plays clear delivered
  · rw [play, state]
    exact State.stateOf_waits clear waits
  · rw [play, state]
    exact State.stateOf_passes blocked
  · rw [play, state, current]
    exact seq

end

/-! ### The exit before the act, and a splice's act before or behind the exit (R79, R150, log 11) -/

section
variable {s : State} {after : List Feature} {f : Feature} {k : RejectCause}

/-- The feature has left the head of the list as a HANDOFF. -/
def State.leaves (s : State) (after : List Feature) (f : Feature) : State :=
  State.pushHandoff { s with map := { s.map with features := after } } (s.handoffOf f)

theorem State.leaves_length : (s.leaves after f).link.handoffFifo.length = s.link.handoffFifo.length + 1 := List.length_append

/-- The feature at the head of the list, the only one that has reached the exit, leaves as a HANDOFF. -/
theorem State.takeExits_leaves (features : s.map.features = { f with reached := true } :: after) (notLate : f.overdue = false)
    (filled : f.hasPending = false) (behind : ∀ g ∈ after, g.reached = false ∧ g.overdue = false) (notLast : s.isLast = false)
    (few : s.link.handoffFifo.length < 8) (single : s.events.has .duplicateIndex = false) : s.takeExits = s.leaves after f := by
  have held : Feature.isHeld { f with reached := true } = true := Feature.isHeld_arrived notLate
  have one := State.takeExits_one (before := []) features (List.forall_mem_nil _) held filled
    fun g mem => Feature.isHeld_fresh (behind g mem).1
  have none : s.anyOverdue = false := by
    rw [State.anyOverdue, features]
    exact any_eq_false_of fun g mem => (List.mem_cons.1 mem).elim (fun same => same ▸ notLate) fun rest => (behind g rest).2
  exact one.trans
    (State.exitHeld_sent (before := []) features (List.forall_mem_nil _) held notLast none (State.handoffRoom_iff.2 ⟨few, single⟩))

theorem State.featureExit_panel {p : Panel} (blade : s.cfg.blade = true) (body : f.body = .panel p) :
    s.featureExit f = s.takeExits.panelAtBlade p f := by
  have act : s.takeExits.atBlade f = s.takeExits.panelAtBlade p f := by
    rw [State.atBlade, if_pos (by simpa using blade), body]
  rw [State.featureExit, body]
  exact act

theorem State.atBlade_splice {n : Nat} {a : Bool} (blade : s.cfg.blade = true) (body : f.body = .splice n a) :
    s.atBlade f = s.spliceAtBlade f.entry := by
  rw [State.atBlade, if_pos blade, body]

/-- The state with the clear position that a SPLICE of this entry position sets. -/
def State.clearSet (s : State) (entry : Pos) : State :=
  let clear := ahead (ahead entry s.cfg.bDist) s.cfg.spliceClear
  { s with seq := { s.seq with clearPos := if atOrBefore clear s.tracker.position then none else some clear } }

theorem State.clearSet_setsClear (entry : Pos) : s.setsClear (s.clearSet entry) entry := by
  rintro clear rfl
  refine ⟨fun later => if_neg ?_, fun passed => if_pos (atOrBefore_iff.2 passed)⟩
  rw [atOrBefore_iff]
  exact Int.not_le.2 later

theorem State.spliceAtBlade_rests (rests : s.seq.state = .idle ∨ s.seq.state = .runout) (entry : Pos) :
    s.spliceAtBlade entry = s.clearSet entry := by
  unfold State.spliceAtBlade
  dsimp only
  split
  case h_1 state | h_2 state | h_3 state => rcases rests with other | other <;> exact nomatch other.symm.trans state
  all_goals rfl

theorem State.spliceAtBlade_ends (plays : s.seq.state = .leadIn ∨ s.seq.state = .folding ∨ s.seq.state = .tail)
    (entry : Pos) : s.spliceAtBlade entry = (s.clearSet entry).abandonPanel .spliced := by
  unfold State.spliceAtBlade
  dsimp only
  split
  case h_4 state | h_5 state => rcases plays with other | other | other <;> exact nomatch other.symm.trans state
  all_goals rfl

theorem State.featureExit_splice_rests {n : Nat} {a : Bool} (body : f.body = .splice n a)
    (rests : s.seq.state = .idle ∨ s.seq.state = .runout) : s.featureExit f = s.takeExits.atBlade f := by
  have still : s.endsPlay = false := by
    rw [State.endsPlay]
    rcases rests with state | state <;> rw [state] <;> exact Bool.and_false _
  rw [State.featureExit, body]
  exact if_neg (by rw [still]; nofun)

theorem State.featureExit_splice_ends {n : Nat} {a : Bool} (blade : s.cfg.blade = true) (body : f.body = .splice n a)
    (plays : s.seq.state = .leadIn ∨ s.seq.state = .folding ∨ s.seq.state = .tail) :
    s.featureExit f = State.spliceExit (Config.noticeFirst s.free) { s with free := s.free + 1 } f := by
  have ends : s.endsPlay = true := by
    rw [State.endsPlay, blade]
    rcases plays with state | state | state <;> rw [state] <;> rfl
  rw [State.featureExit, body]
  exact if_pos ends

/-- The state a SPLICE leaves that ends a panel's play, with these payloads behind the handoffs that wait. -/
def State.spliceEnded (s : State) (after : List Feature) (f : Feature) (payloads : List Payload) : State :=
  State.rejecting { s.clearSet f.entry with map := { s.map with features := after }, free := s.free + 1 } payloads
    (s.planWithout .spliced) .runout none

theorem State.leaves_rejecting {rejects : List Payload} {plan : PlanQueue} {state : SeqState} {play : Option Play} :
    (s.leaves after f).rejecting rejects plan state play =
      State.rejecting { s with map := { s.map with features := after } } (s.handoffOf f :: rejects) plan state play := by
  have serial : s.link.serial + 1 + rejects.length = s.link.serial + (s.handoffOf f :: rejects).length := by
    rw [List.length_cons]
    omega
  have fifo : s.link.handoffFifo ++ [{ id := s.link.serial, payload := s.handoffOf f }] ++ framesFrom (s.link.serial + 1) rejects =
      s.link.handoffFifo ++ framesFrom s.link.serial (s.handoffOf f :: rejects) := List.append_assoc ..
  unfold State.rejecting
  rw [← serial, ← fifo]
  rfl

theorem State.rejecting_leaves {rejects : List Payload} {plan : PlanQueue} {state : SeqState} {play : Option Play} :
    (s.rejecting rejects plan state play).leaves after f =
      State.rejecting { s with map := { s.map with features := after } } (rejects ++ [s.handoffOf f]) plan state play := by
  have serial : s.link.serial + rejects.length + 1 = s.link.serial + (rejects ++ [s.handoffOf f]).length := by
    rw [List.length_append]
    rfl
  have fifo : s.link.handoffFifo ++ framesFrom s.link.serial rejects ++
        [{ id := s.link.serial + rejects.length, payload := s.handoffOf f }] =
      s.link.handoffFifo ++ framesFrom s.link.serial (rejects ++ [s.handoffOf f]) := by
    rw [framesFrom_append, List.append_assoc]
    rfl
  unfold State.rejecting
  rw [← serial, ← fifo]
  rfl

theorem State.atBlade_ends {n : Nat} {a : Bool} (blade : s.cfg.blade = true) (body : f.body = .splice n a)
    (plays : s.seq.state = .leadIn ∨ s.seq.state = .folding ∨ s.seq.state = .tail)
    (gone : ∀ d, s.seq.current = some d → d.panel ∉ panelNumbers s.map.features) (notLast : s.isLast = false)
    (few : s.link.handoffFifo.length < 8) (single : s.events.has .duplicateIndex = false) :
    s.atBlade f = (s.clearSet f.entry).rejecting (s.givingUp .spliced) (s.planWithout .spliced) .runout none :=
  (State.atBlade_splice blade body).trans
    ((State.spliceAtBlade_ends plays f.entry).trans
      (State.abandonPanel_rejecting (s := s.clearSet f.entry) (k := .spliced) gone notLast few single))

/-- The notice of the panel that ends stands behind the HANDOFF of the SPLICE or before it. -/
theorem State.arrived_spliceEnded {n : Nat} {a : Bool} (blade : s.cfg.blade = true) (body : f.body = .splice n a)
    (notLate : f.overdue = false) (behind : ∀ g ∈ after, g.reached = false ∧ g.overdue = false) (notLast : s.isLast = false)
    (few : s.link.handoffFifo.length < 7) (single : s.events.has .duplicateIndex = false)
    (gone : ∀ d, s.seq.current = some d → d.panel ∉ panelNumbers after)
    (plays : s.seq.state = .leadIn ∨ s.seq.state = .folding ∨ s.seq.state = .tail) :
    ∃ payloads,
      (payloads = s.handoffOf f :: s.givingUp .spliced ∨ payloads = s.givingUp .spliced ++ [s.handoffOf f]) ∧
        (s.arrived [] after f).featureExit f = s.spliceEnded after f payloads := by
  have filled : f.hasPending = false := Feature.hasPending_splice body
  let u : State := { s.arrived [] after f with free := s.free + 1 }
  have exits : (s.arrived [] after f).featureExit f = State.spliceExit (Config.noticeFirst s.free) u f :=
    State.featureExit_splice_ends (s := s.arrived [] after f) blade body plays
  rw [exits]
  cases Config.noticeFirst s.free with
  | false =>
    refine ⟨_, .inl rfl, ?_⟩
    have left : u.takeExits = u.leaves after f :=
      State.takeExits_leaves (s := u) rfl notLate filled behind notLast (Nat.lt_succ_of_lt few) single
    have room : (u.leaves after f).link.handoffFifo.length < 8 := by
      rw [State.leaves_length]
      exact Nat.succ_lt_succ few
    have acts := State.atBlade_ends (s := u.leaves after f) blade body plays gone notLast room single
    show u.takeExits.atBlade f = _
    rw [left]
    exact acts.trans (State.leaves_rejecting (s := u.clearSet f.entry))
  | true =>
    refine ⟨_, .inr rfl, ?_⟩
    have numbers : panelNumbers ({ f with reached := true } :: after) = panelNumbers after := by
      rw [panelNumbers, List.filterMap_cons_none (by rw [Feature.panel?, body]; rfl)]
      rfl
    have acts := State.atBlade_ends (s := u) blade body plays (fun d current => numbers ▸ gone d current) notLast
      (Nat.lt_succ_of_lt few) single
    let w : State := (u.clearSet f.entry).rejecting (s.givingUp .spliced) (s.planWithout .spliced) .runout none
    have room : w.link.handoffFifo.length < 8 := by
      have length : w.link.handoffFifo.length = s.link.handoffFifo.length + (s.givingUp .spliced).length := by
        rw [← framesFrom_length s.link.serial (s.givingUp .spliced), ← List.length_append]
        rfl
      have short := s.givingUp_length (k := .spliced)
      omega
    have left : w.takeExits = w.leaves after f := State.takeExits_leaves (s := w) rfl notLate filled behind notLast room single
    show (u.atBlade f).takeExits = _
    rw [acts]
    exact left.trans (State.rejecting_leaves (s := u.clearSet f.entry))

/-- A PANEL that leaves at the blade becomes current. -/
theorem State.leaves_panelAtBlade {p : Panel} {c : Context} (blade : s.cfg.blade = true)
    (behind : ∀ g ∈ after, g.reached = false ∧ g.overdue = false) (notLast : s.isLast = false)
    (few : s.link.handoffFifo.length < 6) (single : s.events.has .duplicateIndex = false) (left : p.number ∉ panelNumbers after)
    (gone : ∀ d, s.seq.current = some d → d.panel ∉ panelNumbers after) (next : s.seq.next = some c) (own : c.panel = p.number) :
    ∃ t rejects,
      (s.leaves after f).panelAtBlade p f = t ∧ t.map = { s.map with features := after } ∧ s.takesCurrent t c after ∧
        t.link =
          { s.link with
            handoffFifo := s.link.handoffFifo ++ framesFrom s.link.serial (s.handoffOf f :: (rejects ++ s.refusing p.number))
            serial := s.link.serial + (s.handoffOf f :: (rejects ++ s.refusing p.number)).length } ∧
        (s.seq.state = .idle ∨ s.seq.state = .tail ∨ s.seq.state = .runout → rejects = []) ∧
        (s.seq.state = .leadIn ∨ s.seq.state = .folding → rejects = s.givingUp .truncated) ∧
        t = { s with map := t.map, seq := t.seq, link := t.link, store := t.store, plan := t.plan } ∧ s.planKept t ∧
        (s.cfg.origin = false → t.plan = s.plan) := by
  have room : (s.leaves after f).link.handoffFifo.length < 7 := by
    rw [State.leaves_length]
    exact Nat.succ_lt_succ few
  obtain ⟨rejects, plan, taken, kept, away, rests, plays⟩ :=
    State.panelAtBlade_taking (s := s.leaves after f) (f := f) next own gone left notLast room single
  let m := (s.leaves after f).taking c (rejects ++ s.refusing p.number) plan
  have current := State.taking_takesCurrent (s := s.leaves after f) (c := c) (rejects := rejects ++ s.refusing p.number) (plan := plan)
    blade fun g mem => (behind g mem).1
  obtain ⟨t, same⟩ : ∃ t, t = m.settleNext := ⟨_, rfl⟩
  have frame := m.settleNext_frame
  rw [← same] at frame
  have map : t.map = { s.map with features := after } := (congrArg State.map frame :)
  have newPlan : t.plan = plan := (congrArg State.plan frame :)
  have link : t.link = m.link := (congrArg State.link frame :)
  have seq : t.seq = { m.seq with next := t.seq.next } := (congrArg State.seq frame :)
  have links : m.link = _ := congrArg State.link
    (State.leaves_rejecting (s := { s with seq := { s.seq with current := some c, next := none } }) (after := after) (f := f)
      (rejects := rejects ++ s.refusing p.number) (plan := plan) (state := s.stateOf c) (play := s.playOf c))
  refine ⟨t, rejects, taken.trans same.symm, map, same ▸ current, link.trans links, rests, plays, ?_, ?_, fun notOrigin =>
    newPlan.trans (away notOrigin)⟩
  · rw [map, link, seq, newPlan]
    exact frame
  · unfold State.planKept
    rw [newPlan]
    exact kept

end

/-- Settles O40: the exit at the blade with room for the HANDOFF and for the notices of the Sequencer's act. -/
theorem featuresReachTheBlade : Obligations.FeaturesReachTheBlade := by
  refine ⟨fun s f after p c blade features body fresh notLate filled behind due notLast few single left gone next own => ?_,
    fun s f after n a blade features body fresh notLate behind due notLast few single gone => ?_⟩
  · have exits := State.takeExits_leaves (s := s.arrived [] after f) rfl notLate filled behind notLast (Nat.lt_of_lt_of_le few (by decide))
      single
    have taken : exec .featureAtExit s = .next ((s.leaves after f).panelAtBlade p f) :=
      (exec_featureAtExit (before := []) features (List.forall_mem_nil _) fresh due).trans
        (congrArg _ ((State.featureExit_panel (s := s.arrived [] after f) blade body).trans
          (congrArg (fun t => State.panelAtBlade t p f) exits)))
    have handoff : s.handoffOf f =
        .handoffPanel (BitVec.ofNat 32 p.number) (BitVec.ofNat 16 p.pattern) (BitVec.ofNat 32 ((p.outLen.get?).getD 0))
          (BitVec.ofNat 8 (causeCode p.cause)) := by
      rw [State.handoffOf, body]
      dsimp only
      rw [if_pos blade]
    obtain ⟨t, rejects, acts, map, current, link, rests, plays, frame, kept, away⟩ :=
      State.leaves_panelAtBlade (f := f) blade behind notLast few single left gone next own
    refine ⟨t, _, taken.trans (congrArg _ acts), rfl, map, current, fun state => ⟨fun clear => ?_, fun blocked => ?_⟩,
      fun state clear d isCurrent => ?_, frame, kept, away⟩
    · rw [link, rests state, State.refusing, if_pos clear, handoff]
      rfl
    · rw [link, rests state, State.refusing, if_neg blocked, handoff]
      rfl
    · rw [link, plays state, State.refusing, if_pos clear, handoff, State.givingUp, isCurrent]
      rfl
  · have taken := exec_featureAtExit (before := []) features (List.forall_mem_nil _) fresh due
    have handoff : s.handoffOf f = .handoffSplice (BitVec.ofNat 32 n) := by rw [State.handoffOf, body]
    have filled : f.hasPending = false := Feature.hasPending_splice body
    by_cases rests : s.seq.state = .idle ∨ s.seq.state = .runout
    · have exits := State.takeExits_leaves (s := s.arrived [] after f) rfl notLate filled behind notLast (Nat.lt_succ_of_lt few) single
      have acts : (s.arrived [] after f).featureExit f = (s.leaves after f).clearSet f.entry :=
        (State.featureExit_splice_rests (s := s.arrived [] after f) body rests).trans
          ((congrArg (fun t => State.atBlade t f) exits).trans
            ((State.atBlade_splice (s := s.leaves after f) blade body).trans
              (State.spliceAtBlade_rests (s := s.leaves after f) rests f.entry)))
      refine ⟨(s.leaves after f).clearSet f.entry, taken.trans (congrArg _ acts), rfl, State.clearSet_setsClear (s := s) f.entry,
        fun _ => ⟨?_, rfl⟩, fun plays => ?_⟩
      · rw [← handoff]
        rfl
      · rcases rests with state | state <;> rw [state] at plays <;> simp at plays
    · have plays : s.seq.state = .leadIn ∨ s.seq.state = .folding ∨ s.seq.state = .tail := by
        cases state : s.seq.state with
        | leadIn => exact .inl rfl
        | folding => exact .inr (.inl rfl)
        | tail => exact .inr (.inr rfl)
        | idle => exact absurd (.inl state) rests
        | runout => exact absurd (.inr state) rests
      obtain ⟨payloads, order, ends⟩ := State.arrived_spliceEnded blade body notLate behind notLast few single gone plays
      refine ⟨s.spliceEnded after f payloads, taken.trans (congrArg _ ends), rfl, State.clearSet_setsClear (s := s) f.entry,
        fun other => absurd other rests, fun _ d current => ⟨?_, ?_, rfl⟩⟩
      · have notice : s.givingUp .spliced = [.handoffReject (BitVec.ofNat 32 d.panel) 2] := by
          rw [State.givingUp, current]
          rfl
        rw [notice, handoff] at order
        rcases order with rfl | rfl
        · exact ⟨_, _, .inl ⟨rfl, rfl⟩, rfl⟩
        · exact ⟨_, _, .inr ⟨rfl, rfl⟩, rfl⟩
      · exact congrArg (fun x : Option Context => x.elim s.plan fun d => s.planAfter d.panel .spliced) current

end Sys2Proof.Machine
end
